-- ==== Sys2Proof/Word.lean ====
section
/-! DEFINITION. The data types of VMAX (00_scope.md R5, R7, R9): a byte is 8 bits, a word 16, a long 32, a
float 32, a double 64, an address is an unsigned long. All are bit patterns. -/

namespace Sys2Proof

/-- A byte, 8 bits (00_scope.md R5). -/
abbrev Byte := BitVec 8

/-- A word, 16 bits (00_scope.md R5). -/
abbrev Word := BitVec 16

/-- A long, 32 bits; also an address and the bit pattern of a float (00_scope.md R5, R12). -/
abbrev Long := BitVec 32

/-- The 64-bit pattern of a double (00_scope.md R5, R12). -/
abbrev Quad := BitVec 64

end Sys2Proof
end

