-- ==== Sys2Proof/Syntax.lean ====
section
/-! DEFINITION. The instructions of VMAX as data: registers, the operand forms of the eleven formats
(30_encoding.md), and one constructor per row of the opcode table. An instruction keeps the form it was
encoded in (a short and a long form of one address are two terms), so its length is determined by it. -/

namespace Sys2Proof

/-- The number 0..7 of a register within its file (30_encoding.md R86). Among the long registers 6 is fp and
7 is sp (10_state.md R22). -/
abbrev Reg := Fin 8

/-- The four register files (10_state.md R20), the type bits of a general number (10_state.md R25). -/
inductive RegFile where
  | w | l | f | d
deriving DecidableEq, Repr

/-- A register of any type: its file and its number within the file (10_state.md R25). -/
structure GReg where
  file : RegFile
  idx : Reg
deriving DecidableEq, Repr

/-- The two-bit scale field s, a left shift by s bits (30_encoding.md R104). -/
abbrev Scale := Fin 4

/-- The two-bit n-field of the mr-byte; the byte count is 2 ^ n (30_encoding.md R115). -/
abbrev SizeCode := Fin 4

/-- The byte count 1, 2, 4 or 8 an n-field stands for (30_encoding.md R115). -/
abbrev SizeCode.bytes (n : SizeCode) : Nat := 2 ^ n.val

/-- The modes the x-bytes select (30_encoding.md R105 to R107): index only, base only, base and index. -/
inductive XMode where
  | i (s : Scale) (ireg : Reg)
  | id1 (s : Scale) (ireg : Reg) (disp : BitVec 8)
  | id3 (s : Scale) (ireg : Reg) (disp : BitVec 24)
  | id4 (s : Scale) (ireg : Reg) (disp : BitVec 32)
  | b (breg : Reg)
  | bd1 (breg : Reg) (disp : BitVec 8)
  | bd3 (breg : Reg) (disp : BitVec 24)
  | bd4 (breg : Reg) (disp : BitVec 32)
  | bi (breg : Reg) (s : Scale) (ireg : Reg)
  | bid2 (breg : Reg) (s : Scale) (ireg : Reg) (disp : BitVec 16)
  | bid4 (breg : Reg) (s : Scale) (ireg : Reg) (disp : BitVec 32)
deriving DecidableEq, Repr

/-- A q-operand whose immediates have `n` bits (30_encoding.md R87): the options of the q-field. -/
inductive QOp (n : Nat) where
  /-- reg: a register of the class the specifier implies (R89). -/
  | reg (k : Reg)
  /-- b: the address in a long register (R90). -/
  | base (breg : Reg)
  /-- bd2: a long register plus a 2-byte displacement (R91). -/
  | bd2 (breg : Reg) (disp : BitVec 16)
  /-- mema: the address in the instruction (R92). -/
  | mema (addr : Long)
  /-- imm_1: the value -1 of the operand type (R94). -/
  | immMinus1
  /-- imm0: the value 0 of the operand type (R94). -/
  | imm0
  /-- imm1: the value +1 of the operand type (R94). -/
  | imm1
  /-- immv: the value follows the qr-byte (R98). -/
  | immv (v : BitVec n)
  /-- imm2: a 2-byte immediate for a long value (R95). -/
  | imm2 (h : BitVec 16)
  /-- regx: one of the x-byte modes (R99). -/
  | x (m : XMode)
deriving DecidableEq, Repr

/-- An m-operand (30_encoding.md R116 to R118). -/
inductive MOp where
  | mmema (addr : Long)
  | mreg (g : GReg)
  | x (m : XMode)
deriving DecidableEq, Repr

/-- The eleven defined conditions (30_encoding.md R121). -/
inductive Cond where
  | unc | leu | lu | l | le | e | ne | ge | g | gu | geu
deriving DecidableEq, Repr

/-- The number of a condition (30_encoding.md R121). -/
def Cond.number : Cond → Nat
  | .unc => 0 | .leu => 1 | .lu => 2 | .l => 3 | .le => 4 | .e => 5
  | .ne => 6 | .ge => 7 | .g => 8 | .gu => 9 | .geu => 10

/-- A j-operand (30_encoding.md R122 to R126). -/
inductive JOp where
  | jregi (k : Reg)
  | pcrp (off : BitVec 16)
  | pcrm (off : BitVec 16)
  | jmema (addr : Long)
  | jmemai (addr : Long)
  | sprmi (off : BitVec 16)
deriving DecidableEq, Repr

/-- The 144 mnemonics in the order of the manual's Appendix C, the order of `DEFAULT_OPCODE_MAP`
(30_encoding.md R131). -/
inductive Mnemonic where
  | absd
  | absf
  | absl
  | absw
  | addcl
  | addd
  | addf
  | addl
  | addswl
  | adduwl
  | addw
  | andl
  | andw
  | call
  | callb
  | callf
  | cmpd
  | cmpf
  | cmpl
  | cmplb
  | cmpw
  | cmpwb
  | cvtbsl
  | cvtbsw
  | cvtbzl
  | cvtbzw
  | cvtdf
  | cvtfd
  | cvtsld
  | cvtslf
  | cvttdsl
  | cvttdul
  | cvttfsl
  | cvttful
  | cvtuld
  | cvtulf
  | cvtwsl
  | cvtwzl
  | divd
  | divf
  | divrsl
  | divrslw
  | divrsw
  | divrul
  | divrulw
  | divruw
  | divsl
  | divsw
  | divul
  | divuw
  | enter
  | entersav
  | gmov
  | gsto
  | halt
  | jump
  | jumpb
  | jumpf
  | leal
  | leave
  | leaveres
  | movbl
  | movbw
  | movd
  | movf
  | movflags
  | movl
  | movw
  | movwl
  | muld
  | mulf
  | mulsl
  | mulsw
  | mulswl
  | mulul
  | muluw
  | muluwl
  | negd
  | negf
  | negl
  | negw
  | nop
  | notl
  | notw
  | orl
  | orw
  | popd
  | popf
  | popl
  | popregs
  | popw
  | pushd
  | pushf
  | pushl
  | pushregs
  | pushw
  | remsl
  | remsw
  | remul
  | remuw
  | ret
  | rlil
  | rliw
  | rll
  | rlw
  | rril
  | rriw
  | rrl
  | rrw
  | set0l
  | set0w
  | set1l
  | set1w
  | slil
  | sliw
  | sll
  | slw
  | sqrtd
  | sqrtf
  | srail
  | sraiw
  | sral
  | sraw
  | srlil
  | srliw
  | srll
  | srlw
  | stod
  | stof
  | stoflags
  | stol
  | stolb
  | stolw
  | stow
  | stowb
  | subcl
  | subd
  | subf
  | subl
  | subswl
  | subuwl
  | subw
  | xorl
  | xorw
deriving DecidableEq, Repr

/-- Every mnemonic, in the order of Appendix C (30_encoding.md R131). -/
def Mnemonic.all : List Mnemonic :=
  ([.absd, .absf, .absl, .absw, .addcl, .addd, .addf, .addl, .addswl, .adduwl, .addw, .andl] : List Mnemonic) ++
  ([.andw, .call, .callb, .callf, .cmpd, .cmpf, .cmpl, .cmplb, .cmpw, .cmpwb, .cvtbsl, .cvtbsw] : List Mnemonic) ++
  ([.cvtbzl, .cvtbzw, .cvtdf, .cvtfd, .cvtsld, .cvtslf, .cvttdsl, .cvttdul, .cvttfsl, .cvttful, .cvtuld, .cvtulf] : List Mnemonic) ++
  ([.cvtwsl, .cvtwzl, .divd, .divf, .divrsl, .divrslw, .divrsw, .divrul, .divrulw, .divruw, .divsl, .divsw] : List Mnemonic) ++
  ([.divul, .divuw, .enter, .entersav, .gmov, .gsto, .halt, .jump, .jumpb, .jumpf, .leal, .leave] : List Mnemonic) ++
  ([.leaveres, .movbl, .movbw, .movd, .movf, .movflags, .movl, .movw, .movwl, .muld, .mulf, .mulsl] : List Mnemonic) ++
  ([.mulsw, .mulswl, .mulul, .muluw, .muluwl, .negd, .negf, .negl, .negw, .nop, .notl, .notw] : List Mnemonic) ++
  ([.orl, .orw, .popd, .popf, .popl, .popregs, .popw, .pushd, .pushf, .pushl, .pushregs, .pushw] : List Mnemonic) ++
  ([.remsl, .remsw, .remul, .remuw, .ret, .rlil, .rliw, .rll, .rlw, .rril, .rriw, .rrl] : List Mnemonic) ++
  ([.rrw, .set0l, .set0w, .set1l, .set1w, .slil, .sliw, .sll, .slw, .sqrtd, .sqrtf, .srail] : List Mnemonic) ++
  ([.sraiw, .sral, .sraw, .srlil, .srliw, .srll, .srlw, .stod, .stof, .stoflags, .stol, .stolb] : List Mnemonic) ++
  ([.stolw, .stow, .stowb, .subcl, .subd, .subf, .subl, .subswl, .subuwl, .subw, .xorl, .xorw] : List Mnemonic)

/-- The 144 instructions (30_encoding.md R131), one constructor per row of the opcode table, with the
operands of the row's format: the q-, m- or i-operand first, then the r-, c- or j-operand. -/
inductive Instr where
  /-- Absolute value of double (R243), qr format, operands dv dr. -/
  | absd (q : QOp 64) (r : Reg)
  /-- Absolute value of float (R242), qr format, operands fv fr. -/
  | absf (q : QOp 32) (r : Reg)
  /-- Absolute value of long (R241), qr format, operands lv lr. -/
  | absl (q : QOp 32) (r : Reg)
  /-- Absolute value of word (R240), qr format, operands wv wr. -/
  | absw (q : QOp 16) (r : Reg)
  /-- Add long with carry (R184), qr format, operands lv lr. -/
  | addcl (q : QOp 32) (r : Reg)
  /-- Add double (R188), qr format, operands dv dr. -/
  | addd (q : QOp 64) (r : Reg)
  /-- Add float (R187), qr format, operands fv fr. -/
  | addf (q : QOp 32) (r : Reg)
  /-- Add long (R183), qr format, operands lv lr. -/
  | addl (q : QOp 32) (r : Reg)
  /-- Add signed word to long (R186), qr format, operands wv lr. -/
  | addswl (q : QOp 16) (r : Reg)
  /-- Add unsigned word to long (R185), qr format, operands wv lr. -/
  | adduwl (q : QOp 16) (r : Reg)
  /-- Add word (R182), qr format, operands wv wr. -/
  | addw (q : QOp 16) (r : Reg)
  /-- And long (R283), qr format, operands lv lr. -/
  | andl (q : QOp 32) (r : Reg)
  /-- And word (R282), qr format, operands wv wr. -/
  | andw (q : QOp 16) (r : Reg)
  /-- Call (R345), ij format, operands cc ma. -/
  | call (c : Cond) (j : JOp)
  /-- Call backward (R347), a3 format, operands ma3. -/
  | callb (off : BitVec 24)
  /-- Call forward (R346), a3 format, operands ma3. -/
  | callf (off : BitVec 24)
  /-- Compare double (R326), qr format, operands dv dr. -/
  | cmpd (q : QOp 64) (r : Reg)
  /-- Compare float (R325), qr format, operands fv fr. -/
  | cmpf (q : QOp 32) (r : Reg)
  /-- Compare long (R322), qr format, operands lv lr. -/
  | cmpl (q : QOp 32) (r : Reg)
  /-- Compare lob(long) to byte (R324), qr format, operands bvl lr. -/
  | cmplb (q : QOp 8) (r : Reg)
  /-- Compare word (R321), qr format, operands wv wr. -/
  | cmpw (q : QOp 16) (r : Reg)
  /-- Compare lob(word) to byte (R323), qr format, operands bvw wr. -/
  | cmpwb (q : QOp 8) (r : Reg)
  /-- Convert byte sign-ext to long (R305), qr format, operands bvl lr. -/
  | cvtbsl (q : QOp 8) (r : Reg)
  /-- Convert byte sign-ext to word (R303), qr format, operands bvw wr. -/
  | cvtbsw (q : QOp 8) (r : Reg)
  /-- Convert byte zero-ext to long (R304), qr format, operands bvl lr. -/
  | cvtbzl (q : QOp 8) (r : Reg)
  /-- Convert byte zero-ext to word (R302), qr format, operands bvw wr. -/
  | cvtbzw (q : QOp 8) (r : Reg)
  /-- Convert double to float (R316), qr format, operands dv fr. -/
  | cvtdf (q : QOp 64) (r : Reg)
  /-- Convert float to double (R317), qr format, operands fv dr. -/
  | cvtfd (q : QOp 32) (r : Reg)
  /-- Convert signed long to double (R311), qr format, operands lv dr. -/
  | cvtsld (q : QOp 32) (r : Reg)
  /-- Convert signed long to float (R309), qr format, operands lv fr. -/
  | cvtslf (q : QOp 32) (r : Reg)
  /-- Cnvrt trunc double to sgned lng (R315), qr format, operands dv lr. -/
  | cvttdsl (q : QOp 64) (r : Reg)
  /-- Cnvrt trunc doub to unsngned lng (R314), qr format, operands dv lr. -/
  | cvttdul (q : QOp 64) (r : Reg)
  /-- Cnvrt trunc float to signed lng (R313), qr format, operands fv lr. -/
  | cvttfsl (q : QOp 32) (r : Reg)
  /-- Cnvrt trunc float to unsngnd lng (R312), qr format, operands fv lr. -/
  | cvttful (q : QOp 32) (r : Reg)
  /-- Convert unsigned long to double (R310), qr format, operands lv dr. -/
  | cvtuld (q : QOp 32) (r : Reg)
  /-- Convert unsigned long to float (R308), qr format, operands lv fr. -/
  | cvtulf (q : QOp 32) (r : Reg)
  /-- Convert word sign-ext to long (R307), qr format, operands wv lr. -/
  | cvtwsl (q : QOp 16) (r : Reg)
  /-- Convert word zero-ext to long (R306), qr format, operands wv lr. -/
  | cvtwzl (q : QOp 16) (r : Reg)
  /-- Divide double (R238), qr format, operands dv dr. -/
  | divd (q : QOp 64) (r : Reg)
  /-- Divide float (R237), qr format, operands fv fr. -/
  | divf (q : QOp 32) (r : Reg)
  /-- Divide with rem signed long (R234), qr format, operands lv lr. -/
  | divrsl (q : QOp 32) (r : Reg)
  /-- Div with rem sgned long by word (R236), qr format, operands wv lr. -/
  | divrslw (q : QOp 16) (r : Reg)
  /-- Divide with rem signed word (R232), qr format, operands wv wr. -/
  | divrsw (q : QOp 16) (r : Reg)
  /-- Divide with rem unsigned long (R233), qr format, operands lv lr. -/
  | divrul (q : QOp 32) (r : Reg)
  /-- Div with rem unsngnd lng by word (R235), qr format, operands wv lr. -/
  | divrulw (q : QOp 16) (r : Reg)
  /-- Divide with rem unsigned word (R231), qr format, operands wv wr. -/
  | divruw (q : QOp 16) (r : Reg)
  /-- Divide signed long (R226), qr format, operands lv lr. -/
  | divsl (q : QOp 32) (r : Reg)
  /-- Divide signed word (R224), qr format, operands wv wr. -/
  | divsw (q : QOp 16) (r : Reg)
  /-- Divide unsigned long (R225), qr format, operands lv lr. -/
  | divul (q : QOp 32) (r : Reg)
  /-- Divide unsigned word (R223), qr format, operands wv wr. -/
  | divuw (q : QOp 16) (r : Reg)
  /-- Enter function (R362), b1 format, operands stkc. -/
  | enter (stkc : Byte)
  /-- Enter func. and save regs (R363), b14 format, operands stkc bmsk. -/
  | entersav (stkc : Byte) (bmsk : Long)
  /-- General move (R149), mr format, operands gv gr. -/
  | gmov (n : SizeCode) (r : GReg) (m : MOp)
  /-- General store (R157), mr format, operands ga gr. -/
  | gsto (n : SizeCode) (r : GReg) (m : MOp)
  /-- Halt the VMAX machine (R364), n0 format. -/
  | halt
  /-- Jump (R342), ij format, operands cc ma. -/
  | jump (c : Cond) (j : JOp)
  /-- Jump backward (R344), a3 format, operands ma3. -/
  | jumpb (off : BitVec 24)
  /-- Jump forward (R343), a3 format, operands ma3. -/
  | jumpf (off : BitVec 24)
  /-- Load effective address (R158), qr format, operands lv lr. -/
  | leal (q : QOp 32) (r : Reg)
  /-- Leave function (R349), b1 format, operands stkc. -/
  | leave (stkc : Byte)
  /-- Leave func. and restore regs (R350), b14 format, operands stkc bmsk. -/
  | leaveres (stkc : Byte) (bmsk : Long)
  /-- Move byte to lob(long) (R146), qr format, operands bvl lr. -/
  | movbl (q : QOp 8) (r : Reg)
  /-- Move byte to lob(word) (R145), qr format, operands bvw wr. -/
  | movbw (q : QOp 8) (r : Reg)
  /-- Move double (R144), qr format, operands dv dr. -/
  | movd (q : QOp 64) (r : Reg)
  /-- Move float (R143), qr format, operands fv fr. -/
  | movf (q : QOp 32) (r : Reg)
  /-- Move word to flags reg (R160), qo format, operands wv. -/
  | movflags (q : QOp 16)
  /-- Move long (R142), qr format, operands lv lr. -/
  | movl (q : QOp 32) (r : Reg)
  /-- Move word (R141), qr format, operands wv wr. -/
  | movw (q : QOp 16) (r : Reg)
  /-- Move word to low(long) (R147), qr format, operands wv lr. -/
  | movwl (q : QOp 16) (r : Reg)
  /-- Multiply double (R208), qr format, operands dv dr. -/
  | muld (q : QOp 64) (r : Reg)
  /-- Multiply float (R207), qr format, operands fv fr. -/
  | mulf (q : QOp 32) (r : Reg)
  /-- Multiply signed long (R204), qr format, operands lv lr. -/
  | mulsl (q : QOp 32) (r : Reg)
  /-- Multiply signed word (R202), qr format, operands wv wr. -/
  | mulsw (q : QOp 16) (r : Reg)
  /-- Multiply signed words -> long (R206), qr format, operands wv lr. -/
  | mulswl (q : QOp 16) (r : Reg)
  /-- Multiply unsigned long (R203), qr format, operands lv lr. -/
  | mulul (q : QOp 32) (r : Reg)
  /-- Multiply unsigned word (R201), qr format, operands wv wr. -/
  | muluw (q : QOp 16) (r : Reg)
  /-- Multiply unsigned words -> long (R205), qr format, operands wv lr. -/
  | muluwl (q : QOp 16) (r : Reg)
  /-- Negate double (R199), qr format, operands dv dr. -/
  | negd (q : QOp 64) (r : Reg)
  /-- Negate float (R198), qr format, operands fv fr. -/
  | negf (q : QOp 32) (r : Reg)
  /-- Negate long (R197), qr format, operands lv lr. -/
  | negl (q : QOp 32) (r : Reg)
  /-- Negate word (R196), qr format, operands wv wr. -/
  | negw (q : QOp 16) (r : Reg)
  /-- No operation (R365), n0 format. -/
  | nop
  /-- Not long (R289), qr format, operands lv lr. -/
  | notl (q : QOp 32) (r : Reg)
  /-- Not word (R288), qr format, operands wv wr. -/
  | notw (q : QOp 16) (r : Reg)
  /-- Or long (R285), qr format, operands lv lr. -/
  | orl (q : QOp 32) (r : Reg)
  /-- Or word (R284), qr format, operands wv wr. -/
  | orw (q : QOp 16) (r : Reg)
  /-- Pop double (R359), qo format, operands da. -/
  | popd (q : QOp 64)
  /-- Pop float (R358), qo format, operands fa. -/
  | popf (q : QOp 32)
  /-- Pop long (R357), qo format, operands la. -/
  | popl (q : QOp 32)
  /-- Pop multiple registers (R361), n04 format, operands bmsk. -/
  | popregs (bmsk : Long)
  /-- Pop word (R356), qo format, operands wa. -/
  | popw (q : QOp 16)
  /-- Push double (R355), qo format, operands dv. -/
  | pushd (q : QOp 64)
  /-- Push float (R354), qo format, operands fv. -/
  | pushf (q : QOp 32)
  /-- Push long (R353), qo format, operands lv. -/
  | pushl (q : QOp 32)
  /-- Push multiple registers (R360), n04 format, operands bmsk. -/
  | pushregs (bmsk : Long)
  /-- Push word (R352), qo format, operands wv. -/
  | pushw (q : QOp 16)
  /-- Remainder signed long (R230), qr format, operands lv lr. -/
  | remsl (q : QOp 32) (r : Reg)
  /-- Remainder signed word (R228), qr format, operands wv wr. -/
  | remsw (q : QOp 16) (r : Reg)
  /-- Remainder unsigned long (R229), qr format, operands lv lr. -/
  | remul (q : QOp 32) (r : Reg)
  /-- Remainder unsigned word (R227), qr format, operands wv wr. -/
  | remuw (q : QOp 16) (r : Reg)
  /-- Return from call (R348), b1 format, operands stkc. -/
  | ret (stkc : Byte)
  /-- Rotate left immediate long (R278), ir format, operands sc lr. -/
  | rlil (sc : Fin 32) (r : Reg)
  /-- Rotate left immediate word (R277), ir format, operands sc wr. -/
  | rliw (sc : Fin 32) (r : Reg)
  /-- Rotate left long (R274), qr format, operands bvl lr. -/
  | rll (q : QOp 8) (r : Reg)
  /-- Rotate left word (R273), qr format, operands bvw wr. -/
  | rlw (q : QOp 8) (r : Reg)
  /-- Rotate right immediate long (R280), ir format, operands sc lr. -/
  | rril (sc : Fin 32) (r : Reg)
  /-- Rotate right immediate word (R279), ir format, operands sc wr. -/
  | rriw (sc : Fin 32) (r : Reg)
  /-- Rotate right long (R276), qr format, operands bvl lr. -/
  | rrl (q : QOp 8) (r : Reg)
  /-- Rotate right word (R275), qr format, operands bvw wr. -/
  | rrw (q : QOp 8) (r : Reg)
  /-- Store condition(0) in long (R164), qc format, operands la c0. -/
  | set0l (q : QOp 32) (c : Cond)
  /-- Store condition(0) in word (R162), qc format, operands wa c0. -/
  | set0w (q : QOp 16) (c : Cond)
  /-- Store condition(1) in long (R165), qc format, operands la c1. -/
  | set1l (q : QOp 32) (c : Cond)
  /-- Store condition(1) in word (R163), qc format, operands wa c1. -/
  | set1w (q : QOp 16) (c : Cond)
  /-- Shift left immediate long (R268), ir format, operands sc lr. -/
  | slil (sc : Fin 32) (r : Reg)
  /-- Shift left immediate word (R267), ir format, operands sc wr. -/
  | sliw (sc : Fin 32) (r : Reg)
  /-- Shift left long (R262), qr format, operands bvl lr. -/
  | sll (q : QOp 8) (r : Reg)
  /-- Shift left word (R261), qr format, operands bvw wr. -/
  | slw (q : QOp 8) (r : Reg)
  /-- Square root of double (R245), qr format, operands dv dr. -/
  | sqrtd (q : QOp 64) (r : Reg)
  /-- Square root of float (R244), qr format, operands fv fr. -/
  | sqrtf (q : QOp 32) (r : Reg)
  /-- Shift right arithmetic imm long (R272), ir format, operands sc lr. -/
  | srail (sc : Fin 32) (r : Reg)
  /-- Shift right arithmetic imm word (R271), ir format, operands sc wr. -/
  | sraiw (sc : Fin 32) (r : Reg)
  /-- Shift right arithmetic long (R266), qr format, operands bvl lr. -/
  | sral (q : QOp 8) (r : Reg)
  /-- Shift right arithmetic word (R265), qr format, operands bvw wr. -/
  | sraw (q : QOp 8) (r : Reg)
  /-- Shift right logical imm long (R270), ir format, operands sc lr. -/
  | srlil (sc : Fin 32) (r : Reg)
  /-- Shift right logical imm word (R269), ir format, operands sc wr. -/
  | srliw (sc : Fin 32) (r : Reg)
  /-- Shift right logical long (R264), qr format, operands bvl lr. -/
  | srll (q : QOp 8) (r : Reg)
  /-- Shift right logical word (R263), qr format, operands bvw wr. -/
  | srlw (q : QOp 8) (r : Reg)
  /-- Store double (R153), qr format, operands da dr. -/
  | stod (q : QOp 64) (r : Reg)
  /-- Store float (R152), qr format, operands fa fr. -/
  | stof (q : QOp 32) (r : Reg)
  /-- Store flags reg into word (R161), qo format, operands wa. -/
  | stoflags (q : QOp 16)
  /-- Store long (R151), qr format, operands la lr. -/
  | stol (q : QOp 32) (r : Reg)
  /-- Store lob(long) into byte (R155), qr format, operands bal lr. -/
  | stolb (q : QOp 8) (r : Reg)
  /-- Store low(long) into word (R156), qr format, operands wa lr. -/
  | stolw (q : QOp 16) (r : Reg)
  /-- Store word (R150), qr format, operands wa wr. -/
  | stow (q : QOp 16) (r : Reg)
  /-- Store lob(word) into byte (R154), qr format, operands baw wr. -/
  | stowb (q : QOp 8) (r : Reg)
  /-- Subtract long with carry (R191), qr format, operands lv lr. -/
  | subcl (q : QOp 32) (r : Reg)
  /-- Subtract double (R195), qr format, operands dv dr. -/
  | subd (q : QOp 64) (r : Reg)
  /-- Subtract float (R194), qr format, operands fv fr. -/
  | subf (q : QOp 32) (r : Reg)
  /-- Subtract long (R190), qr format, operands lv lr. -/
  | subl (q : QOp 32) (r : Reg)
  /-- Subtract signed word from long (R193), qr format, operands wv lr. -/
  | subswl (q : QOp 16) (r : Reg)
  /-- Subtract unsigned word from lng (R192), qr format, operands wv lr. -/
  | subuwl (q : QOp 16) (r : Reg)
  /-- Subtract word (R189), qr format, operands wv wr. -/
  | subw (q : QOp 16) (r : Reg)
  /-- Exclusive or long (R287), qr format, operands lv lr. -/
  | xorl (q : QOp 32) (r : Reg)
  /-- Exclusive or word (R286), qr format, operands wv wr. -/
  | xorw (q : QOp 16) (r : Reg)
deriving DecidableEq, Repr

/-- The mnemonic of an instruction, which its opcode byte stands for (30_encoding.md R80). -/
def Instr.mnemonic : Instr → Mnemonic
  | .absd _ _ => .absd
  | .absf _ _ => .absf
  | .absl _ _ => .absl
  | .absw _ _ => .absw
  | .addcl _ _ => .addcl
  | .addd _ _ => .addd
  | .addf _ _ => .addf
  | .addl _ _ => .addl
  | .addswl _ _ => .addswl
  | .adduwl _ _ => .adduwl
  | .addw _ _ => .addw
  | .andl _ _ => .andl
  | .andw _ _ => .andw
  | .call _ _ => .call
  | .callb _ => .callb
  | .callf _ => .callf
  | .cmpd _ _ => .cmpd
  | .cmpf _ _ => .cmpf
  | .cmpl _ _ => .cmpl
  | .cmplb _ _ => .cmplb
  | .cmpw _ _ => .cmpw
  | .cmpwb _ _ => .cmpwb
  | .cvtbsl _ _ => .cvtbsl
  | .cvtbsw _ _ => .cvtbsw
  | .cvtbzl _ _ => .cvtbzl
  | .cvtbzw _ _ => .cvtbzw
  | .cvtdf _ _ => .cvtdf
  | .cvtfd _ _ => .cvtfd
  | .cvtsld _ _ => .cvtsld
  | .cvtslf _ _ => .cvtslf
  | .cvttdsl _ _ => .cvttdsl
  | .cvttdul _ _ => .cvttdul
  | .cvttfsl _ _ => .cvttfsl
  | .cvttful _ _ => .cvttful
  | .cvtuld _ _ => .cvtuld
  | .cvtulf _ _ => .cvtulf
  | .cvtwsl _ _ => .cvtwsl
  | .cvtwzl _ _ => .cvtwzl
  | .divd _ _ => .divd
  | .divf _ _ => .divf
  | .divrsl _ _ => .divrsl
  | .divrslw _ _ => .divrslw
  | .divrsw _ _ => .divrsw
  | .divrul _ _ => .divrul
  | .divrulw _ _ => .divrulw
  | .divruw _ _ => .divruw
  | .divsl _ _ => .divsl
  | .divsw _ _ => .divsw
  | .divul _ _ => .divul
  | .divuw _ _ => .divuw
  | .enter _ => .enter
  | .entersav _ _ => .entersav
  | .gmov _ _ _ => .gmov
  | .gsto _ _ _ => .gsto
  | .halt => .halt
  | .jump _ _ => .jump
  | .jumpb _ => .jumpb
  | .jumpf _ => .jumpf
  | .leal _ _ => .leal
  | .leave _ => .leave
  | .leaveres _ _ => .leaveres
  | .movbl _ _ => .movbl
  | .movbw _ _ => .movbw
  | .movd _ _ => .movd
  | .movf _ _ => .movf
  | .movflags _ => .movflags
  | .movl _ _ => .movl
  | .movw _ _ => .movw
  | .movwl _ _ => .movwl
  | .muld _ _ => .muld
  | .mulf _ _ => .mulf
  | .mulsl _ _ => .mulsl
  | .mulsw _ _ => .mulsw
  | .mulswl _ _ => .mulswl
  | .mulul _ _ => .mulul
  | .muluw _ _ => .muluw
  | .muluwl _ _ => .muluwl
  | .negd _ _ => .negd
  | .negf _ _ => .negf
  | .negl _ _ => .negl
  | .negw _ _ => .negw
  | .nop => .nop
  | .notl _ _ => .notl
  | .notw _ _ => .notw
  | .orl _ _ => .orl
  | .orw _ _ => .orw
  | .popd _ => .popd
  | .popf _ => .popf
  | .popl _ => .popl
  | .popregs _ => .popregs
  | .popw _ => .popw
  | .pushd _ => .pushd
  | .pushf _ => .pushf
  | .pushl _ => .pushl
  | .pushregs _ => .pushregs
  | .pushw _ => .pushw
  | .remsl _ _ => .remsl
  | .remsw _ _ => .remsw
  | .remul _ _ => .remul
  | .remuw _ _ => .remuw
  | .ret _ => .ret
  | .rlil _ _ => .rlil
  | .rliw _ _ => .rliw
  | .rll _ _ => .rll
  | .rlw _ _ => .rlw
  | .rril _ _ => .rril
  | .rriw _ _ => .rriw
  | .rrl _ _ => .rrl
  | .rrw _ _ => .rrw
  | .set0l _ _ => .set0l
  | .set0w _ _ => .set0w
  | .set1l _ _ => .set1l
  | .set1w _ _ => .set1w
  | .slil _ _ => .slil
  | .sliw _ _ => .sliw
  | .sll _ _ => .sll
  | .slw _ _ => .slw
  | .sqrtd _ _ => .sqrtd
  | .sqrtf _ _ => .sqrtf
  | .srail _ _ => .srail
  | .sraiw _ _ => .sraiw
  | .sral _ _ => .sral
  | .sraw _ _ => .sraw
  | .srlil _ _ => .srlil
  | .srliw _ _ => .srliw
  | .srll _ _ => .srll
  | .srlw _ _ => .srlw
  | .stod _ _ => .stod
  | .stof _ _ => .stof
  | .stoflags _ => .stoflags
  | .stol _ _ => .stol
  | .stolb _ _ => .stolb
  | .stolw _ _ => .stolw
  | .stow _ _ => .stow
  | .stowb _ _ => .stowb
  | .subcl _ _ => .subcl
  | .subd _ _ => .subd
  | .subf _ _ => .subf
  | .subl _ _ => .subl
  | .subswl _ _ => .subswl
  | .subuwl _ _ => .subuwl
  | .subw _ _ => .subw
  | .xorl _ _ => .xorl
  | .xorw _ _ => .xorw

end Sys2Proof
end

