-- ==== Sys2Proof/Config.lean ====
section
/-! DEFINITION. What an implementation fixes (the parameters of 00_scope.md R6) and the free values (the
unspecified results of 93_implementation_defined.md U5, U6, U16). ENTRY and IMAGE, which only the start state
uses, are arguments of `Machine.State.start`. -/

namespace Sys2Proof

/-- The order of the fields n (2 bits), g (1 bit) and r (5 bits) inside the mr-byte, highest first: the
parameter `MR_BYTE_LAYOUT` (30_encoding.md R115). -/
inductive MrLayout where
  | ngr | gnr | nrg | grn | rng | rgn
deriving DecidableEq, Repr

/-- The parameters of the machine that its steps depend on (00_scope.md R6). -/
structure Params where
  /-- `MEMSIZE`, the number of bytes of memory (20_memory.md R50). -/
  memSize : Nat
  /-- `OPCODE_MAP`, the opcode byte of each mnemonic (30_encoding.md R131). -/
  opcodeMap : List (Mnemonic × Byte)
  /-- `MR_BYTE_LAYOUT` (30_encoding.md R115). -/
  mrLayout : MrLayout
  /-- `MREG_ENCODING`: the x1-byte that selects mreg, followed by an x2-byte 000:mreg (30_encoding.md R118). -/
  mregX1 : Byte
deriving DecidableEq, Repr

/-- `DEFAULT_OPCODE_MAP`: the 1-based position in the list of Appendix C (30_encoding.md R131). -/
def defaultOpcodeMap : List (Mnemonic × Byte) :=
  Mnemonic.all.zipIdx.map fun (m, i) => (m, BitVec.ofNat 8 (i + 1))

/-- The defaults of R6, R115, R118 and R131. DESIGN CHOICE (log 1): MEMSIZE, which has no default in the spec,
is the whole address space of 2^32 bytes. -/
def defaultParams : Params where
  memSize := 4294967296
  opcodeMap := defaultOpcodeMap
  mrLayout := .ngr
  mregX1 := 0x70

/-- Whether an x1-byte is one of the unused patterns of the qr format (30_encoding.md R109): base only or base
and index with bit 3 set, or base and index with submode 01. -/
def x1Reserved (x1 : Nat) : Bool :=
  x1 / 32 % 2 == 1 && (x1 / 8 % 2 == 1 || (x1 / 16 % 2 == 1 && x1 / 64 == 1))

/-- The restrictions 00_scope.md R6 puts on the parameters: MEMSIZE is even and between 8 and 2^32, OPCODE_MAP
is an injective map from the 144 mnemonics, and the mreg pattern is one no x-byte mode uses (30_encoding.md R118). -/
def Params.wf (p : Params) : Bool :=
  p.memSize % 2 == 0 && decide (8 ≤ p.memSize) && decide (p.memSize ≤ 4294967296) &&
  decide (p.opcodeMap.map Prod.fst = Mnemonic.all) && decide (p.opcodeMap.map Prod.snd).Nodup &&
  x1Reserved p.mregX1.toNat

/-- Free value: the 32-bit results the spec leaves unspecified, the `k`-th that a run uses
(93_implementation_defined.md U5, U6; logs 9 and 10). -/
opaque freeLong : Nat → Long

/-- Free value: the 64-bit results the spec leaves unspecified, the `k`-th that a run uses
(93_implementation_defined.md U5; log 9). -/
opaque freeQuad : Nat → Quad

/-- Free value: which of the three flag patterns a floating compare with a NaN writes, the `k`-th that a run
uses (93_implementation_defined.md U16; log 11). -/
opaque freeOrdering : Nat → Ordering

end Sys2Proof
end

