-- ==== Sys2Proof/WellFormed.lean ====
section
/-! DEFINITION. Which instructions are legal forms: the restrictions of 30_encoding.md R133 that the types of
Syntax.lean do not already enforce. -/

namespace Sys2Proof

/-- What an instruction wants of its q-operand (00_scope.md R13, 30_encoding.md R88): a value of a type other
than long, a long value (the only one imm2 may stand for, R95), or an address (no immediate, R97). -/
inductive QSpec where
  | value | longValue | address
deriving DecidableEq, Repr

/-- Whether a q-operand is an immediate (30_encoding.md R93). -/
def QOp.isImm {n : Nat} : QOp n → Bool
  | .immMinus1 | .imm0 | .imm1 | .immv _ | .imm2 _ => true
  | .reg _ | .base _ | .bd2 _ _ | .mema _ | .x _ => false

/-- Whether a q-operand has the form imm2 (30_encoding.md R95). -/
def QOp.isImm2 {n : Nat} : QOp n → Bool
  | .imm2 _ => true
  | .reg _ | .base _ | .bd2 _ _ | .mema _ | .x _ | .immMinus1 | .imm0 | .imm1 | .immv _ => false

/-- Whether a q-operand is legal for a specifier (30_encoding.md R133 (b), (c)). -/
def QOp.legal {n : Nat} (q : QOp n) : QSpec → Bool
  | .value => !q.isImm2
  | .longValue => true
  | .address => !q.isImm

/-- The size in bytes of a register of a file, 2, 4, 4, 8 (10_state.md R25). -/
def RegFile.size : RegFile → Nat
  | .w => 2 | .l => 4 | .f => 4 | .d => 8

/-- Whether the group of registers that holds the byte count of `n` from `g` on stays in its file
(40_data_movement.md R148). -/
def GReg.groupFits (g : GReg) (n : SizeCode) : Bool :=
  decide (n.bytes ≤ g.file.size) || decide (g.idx.val + n.bytes / g.file.size ≤ 8)

/-- Whether the register group of an mreg operand fits (40_data_movement.md R148). -/
def MOp.groupFits (m : MOp) (n : SizeCode) : Bool :=
  match m with
  | .mreg g => g.groupFits n
  | .mmema _ => true
  | .x _ => true

/-- Whether an instruction is one of the legal forms of the encoding: the cases (b), (c), (f) and (k)
of 30_encoding.md R133 that an `Instr` can still express. -/
def Instr.wellFormed : Instr → Bool
  | .absd q _ => q.legal .value
  | .absf q _ => q.legal .value
  | .absl q _ => q.legal .longValue
  | .absw q _ => q.legal .value
  | .addcl q _ => q.legal .longValue
  | .addd q _ => q.legal .value
  | .addf q _ => q.legal .value
  | .addl q _ => q.legal .longValue
  | .addswl q _ => q.legal .value
  | .adduwl q _ => q.legal .value
  | .addw q _ => q.legal .value
  | .andl q _ => q.legal .longValue
  | .andw q _ => q.legal .value
  | .call _ _ => true
  | .callb _ => true
  | .callf _ => true
  | .cmpd q _ => q.legal .value
  | .cmpf q _ => q.legal .value
  | .cmpl q _ => q.legal .longValue
  | .cmplb q _ => q.legal .value
  | .cmpw q _ => q.legal .value
  | .cmpwb q _ => q.legal .value
  | .cvtbsl q _ => q.legal .value
  | .cvtbsw q _ => q.legal .value
  | .cvtbzl q _ => q.legal .value
  | .cvtbzw q _ => q.legal .value
  | .cvtdf q _ => q.legal .value
  | .cvtfd q _ => q.legal .value
  | .cvtsld q _ => q.legal .longValue
  | .cvtslf q _ => q.legal .longValue
  | .cvttdsl q _ => q.legal .value
  | .cvttdul q _ => q.legal .value
  | .cvttfsl q _ => q.legal .value
  | .cvttful q _ => q.legal .value
  | .cvtuld q _ => q.legal .longValue
  | .cvtulf q _ => q.legal .longValue
  | .cvtwsl q _ => q.legal .value
  | .cvtwzl q _ => q.legal .value
  | .divd q _ => q.legal .value
  | .divf q _ => q.legal .value
  | .divrsl q _ => q.legal .longValue
  | .divrslw q _ => q.legal .value
  | .divrsw q _ => q.legal .value
  | .divrul q _ => q.legal .longValue
  | .divrulw q _ => q.legal .value
  | .divruw q _ => q.legal .value
  | .divsl q _ => q.legal .longValue
  | .divsw q _ => q.legal .value
  | .divul q _ => q.legal .longValue
  | .divuw q _ => q.legal .value
  | .enter _ => true
  | .entersav _ _ => true
  | .gmov n r mo => r.groupFits n && mo.groupFits n
  | .gsto n r mo => r.groupFits n && mo.groupFits n
  | .halt => true
  | .jump _ _ => true
  | .jumpb _ => true
  | .jumpf _ => true
  | .leal q _ => q.legal .longValue
  | .leave _ => true
  | .leaveres _ _ => true
  | .movbl q _ => q.legal .value
  | .movbw q _ => q.legal .value
  | .movd q _ => q.legal .value
  | .movf q _ => q.legal .value
  | .movflags q => q.legal .value
  | .movl q _ => q.legal .longValue
  | .movw q _ => q.legal .value
  | .movwl q _ => q.legal .value
  | .muld q _ => q.legal .value
  | .mulf q _ => q.legal .value
  | .mulsl q _ => q.legal .longValue
  | .mulsw q _ => q.legal .value
  | .mulswl q _ => q.legal .value
  | .mulul q _ => q.legal .longValue
  | .muluw q _ => q.legal .value
  | .muluwl q _ => q.legal .value
  | .negd q _ => q.legal .value
  | .negf q _ => q.legal .value
  | .negl q _ => q.legal .longValue
  | .negw q _ => q.legal .value
  | .nop => true
  | .notl q _ => q.legal .longValue
  | .notw q _ => q.legal .value
  | .orl q _ => q.legal .longValue
  | .orw q _ => q.legal .value
  | .popd q => q.legal .address
  | .popf q => q.legal .address
  | .popl q => q.legal .address
  | .popregs _ => true
  | .popw q => q.legal .address
  | .pushd q => q.legal .value
  | .pushf q => q.legal .value
  | .pushl q => q.legal .longValue
  | .pushregs _ => true
  | .pushw q => q.legal .value
  | .remsl q _ => q.legal .longValue
  | .remsw q _ => q.legal .value
  | .remul q _ => q.legal .longValue
  | .remuw q _ => q.legal .value
  | .ret _ => true
  | .rlil _ _ => true
  | .rliw _ _ => true
  | .rll q _ => q.legal .value
  | .rlw q _ => q.legal .value
  | .rril _ _ => true
  | .rriw _ _ => true
  | .rrl q _ => q.legal .value
  | .rrw q _ => q.legal .value
  | .set0l q c => q.legal .address && c.number / 8 == 0
  | .set0w q c => q.legal .address && c.number / 8 == 0
  | .set1l q c => q.legal .address && c.number / 8 == 1
  | .set1w q c => q.legal .address && c.number / 8 == 1
  | .slil _ _ => true
  | .sliw _ _ => true
  | .sll q _ => q.legal .value
  | .slw q _ => q.legal .value
  | .sqrtd q _ => q.legal .value
  | .sqrtf q _ => q.legal .value
  | .srail _ _ => true
  | .sraiw _ _ => true
  | .sral q _ => q.legal .value
  | .sraw q _ => q.legal .value
  | .srlil _ _ => true
  | .srliw _ _ => true
  | .srll q _ => q.legal .value
  | .srlw q _ => q.legal .value
  | .stod q _ => q.legal .address
  | .stof q _ => q.legal .address
  | .stoflags q => q.legal .address
  | .stol q _ => q.legal .address
  | .stolb q _ => q.legal .address
  | .stolw q _ => q.legal .address
  | .stow q _ => q.legal .address
  | .stowb q _ => q.legal .address
  | .subcl q _ => q.legal .longValue
  | .subd q _ => q.legal .value
  | .subf q _ => q.legal .value
  | .subl q _ => q.legal .longValue
  | .subswl q _ => q.legal .value
  | .subuwl q _ => q.legal .value
  | .subw q _ => q.legal .value
  | .xorl q _ => q.legal .longValue
  | .xorw q _ => q.legal .value

end Sys2Proof
end

