-- ==== Sys2Proof/Decode.lean ====
section
/-! DEFINITION. The encoding of instructions (30_encoding.md): a decoder, total on any bytes, which rejects by
name; after it an encoder written from the same tables. Fields are read and checked in increasing address
order (60_exceptions.md R400 item 3). -/

namespace Sys2Proof

/-- Why bytes are not an instruction. -/
inductive DecodeError where
  /-- The opcode byte names no instruction (30_encoding.md R132). -/
  | illegalOpcode (opcode : Byte)
  /-- A field holds a reserved pattern (30_encoding.md R133). -/
  | reserved
  /-- The field that starts `off` bytes into the instruction lies past the bytes there are. -/
  | truncated (off : Nat)
deriving DecidableEq, Repr

/-- The number a little-endian sequence of bytes stands for (20_memory.md R66). -/
def leNat : List Byte → Nat
  | [] => 0
  | b :: bs => b.toNat + 256 * leNat bs

/-- The `n` low-order bytes of a number, lowest first (20_memory.md R66). -/
def leBytes : Nat → Nat → List Byte
  | 0, _ => []
  | n + 1, v => BitVec.ofNat 8 v :: leBytes n (v / 256)

/-- The `n`-byte field at offset `off` of the instruction (20_memory.md R67). -/
def field (n off : Nat) (bs : List Byte) : Except DecodeError Nat :=
  if off + n ≤ bs.length then .ok (leNat ((bs.drop off).take n)) else .error (.truncated off)

/-- The register of a 3-bit field (30_encoding.md R86). -/
abbrev regOf (n : Nat) : Reg := Fin.ofNat 8 n

/-- The scale of a 2-bit field (30_encoding.md R104). -/
abbrev scaleOf (n : Nat) : Scale := Fin.ofNat 4 n

/-- The type bits of a general number (10_state.md R25). -/
def RegFile.code : RegFile → Nat
  | .w => 0 | .l => 1 | .f => 2 | .d => 3

/-- The general number 0..31 of a register (10_state.md R25). -/
def GReg.number (g : GReg) : Nat := 8 * g.file.code + g.idx.val

/-- The register file with the given type bits (10_state.md R25). -/
def RegFile.ofCode : Nat → RegFile
  | 0 => .w | 1 => .l | 2 => .f | _ => .d

/-- The register with general number `n` in 0..31 (10_state.md R25). -/
def GReg.ofNumber (n : Nat) : GReg := ⟨RegFile.ofCode (n / 8), regOf (n % 8)⟩

/-- The condition with a number, none for the reserved 11 to 15 (30_encoding.md R121). -/
def Cond.ofNumber : Nat → Option Cond
  | 0 => some .unc | 1 => some .leu | 2 => some .lu | 3 => some .l | 4 => some .le | 5 => some .e
  | 6 => some .ne | 7 => some .ge | 8 => some .g | 9 => some .gu | 10 => some .geu
  | _ => none

/-- The mr-byte from its fields (30_encoding.md R115). -/
def MrLayout.pack (n g r : Nat) : MrLayout → Nat
  | .ngr => 64 * n + 32 * g + r
  | .gnr => 128 * g + 32 * n + r
  | .nrg => 64 * n + 2 * r + g
  | .grn => 128 * g + 4 * r + n
  | .rng => 8 * r + 2 * n + g
  | .rgn => 8 * r + 4 * g + n

/-- The n-field of an mr-byte (30_encoding.md R115). -/
def MrLayout.nField (b : Nat) : MrLayout → Nat
  | .ngr => b / 64
  | .gnr => b / 32 % 4
  | .nrg => b / 64
  | .grn => b % 4
  | .rng => b / 2 % 4
  | .rgn => b % 4

/-- The g-field of an mr-byte (30_encoding.md R115). -/
def MrLayout.gField (b : Nat) : MrLayout → Nat
  | .ngr => b / 32 % 2
  | .gnr => b / 128
  | .nrg => b % 2
  | .grn => b / 128
  | .rng => b % 2
  | .rgn => b / 4 % 2

/-- The r-field of an mr-byte (30_encoding.md R115). -/
def MrLayout.rField (b : Nat) : MrLayout → Nat
  | .ngr => b % 32
  | .gnr => b % 32
  | .nrg => b / 2 % 32
  | .grn => b / 4 % 32
  | .rng => b / 8
  | .rgn => b / 8

/-- How many bytes of instruction an immv of an `n`-bit type takes: 2 for a byte (30_encoding.md R98). -/
def immBytes (n : Nat) : Nat := if n = 8 then 2 else n / 8

/-- The length of the x-bytes and what follows them (30_encoding.md R82). -/
def XMode.bytes : XMode → Nat
  | .i _ _ => 2 | .id1 _ _ _ => 2 | .id3 _ _ _ => 4 | .id4 _ _ _ => 6
  | .b _ => 2 | .bd1 _ _ => 2 | .bd3 _ _ => 4 | .bd4 _ _ => 6
  | .bi _ _ _ => 2 | .bid2 _ _ _ _ => 4 | .bid4 _ _ _ _ => 6

/-- The length of the q-bytes (30_encoding.md R82). -/
def QOp.extraBytes {n : Nat} : QOp n → Nat
  | .reg _ => 0 | .base _ => 0 | .bd2 _ _ => 2 | .mema _ => 4
  | .immMinus1 => 0 | .imm0 => 0 | .imm1 => 0 | .immv _ => immBytes n | .imm2 _ => 2
  | .x m => m.bytes

/-- The length of the m-bytes (30_encoding.md R82). -/
def MOp.extraBytes : MOp → Nat
  | .mmema _ => 4 | .mreg _ => 2 | .x m => m.bytes

/-- The length of the j-bytes (30_encoding.md R82). -/
def JOp.extraBytes : JOp → Nat
  | .jregi _ => 0 | .pcrp _ => 2 | .pcrm _ => 2 | .jmema _ => 4 | .jmemai _ => 4 | .sprmi _ => 2

/-- The number of bytes an instruction occupies (30_encoding.md R82). -/
def Instr.length : Instr → Nat
  | .absd q _ => 2 + q.extraBytes
  | .absf q _ => 2 + q.extraBytes
  | .absl q _ => 2 + q.extraBytes
  | .absw q _ => 2 + q.extraBytes
  | .addcl q _ => 2 + q.extraBytes
  | .addd q _ => 2 + q.extraBytes
  | .addf q _ => 2 + q.extraBytes
  | .addl q _ => 2 + q.extraBytes
  | .addswl q _ => 2 + q.extraBytes
  | .adduwl q _ => 2 + q.extraBytes
  | .addw q _ => 2 + q.extraBytes
  | .andl q _ => 2 + q.extraBytes
  | .andw q _ => 2 + q.extraBytes
  | .call _ j => 2 + j.extraBytes
  | .callb _ => 4
  | .callf _ => 4
  | .cmpd q _ => 2 + q.extraBytes
  | .cmpf q _ => 2 + q.extraBytes
  | .cmpl q _ => 2 + q.extraBytes
  | .cmplb q _ => 2 + q.extraBytes
  | .cmpw q _ => 2 + q.extraBytes
  | .cmpwb q _ => 2 + q.extraBytes
  | .cvtbsl q _ => 2 + q.extraBytes
  | .cvtbsw q _ => 2 + q.extraBytes
  | .cvtbzl q _ => 2 + q.extraBytes
  | .cvtbzw q _ => 2 + q.extraBytes
  | .cvtdf q _ => 2 + q.extraBytes
  | .cvtfd q _ => 2 + q.extraBytes
  | .cvtsld q _ => 2 + q.extraBytes
  | .cvtslf q _ => 2 + q.extraBytes
  | .cvttdsl q _ => 2 + q.extraBytes
  | .cvttdul q _ => 2 + q.extraBytes
  | .cvttfsl q _ => 2 + q.extraBytes
  | .cvttful q _ => 2 + q.extraBytes
  | .cvtuld q _ => 2 + q.extraBytes
  | .cvtulf q _ => 2 + q.extraBytes
  | .cvtwsl q _ => 2 + q.extraBytes
  | .cvtwzl q _ => 2 + q.extraBytes
  | .divd q _ => 2 + q.extraBytes
  | .divf q _ => 2 + q.extraBytes
  | .divrsl q _ => 2 + q.extraBytes
  | .divrslw q _ => 2 + q.extraBytes
  | .divrsw q _ => 2 + q.extraBytes
  | .divrul q _ => 2 + q.extraBytes
  | .divrulw q _ => 2 + q.extraBytes
  | .divruw q _ => 2 + q.extraBytes
  | .divsl q _ => 2 + q.extraBytes
  | .divsw q _ => 2 + q.extraBytes
  | .divul q _ => 2 + q.extraBytes
  | .divuw q _ => 2 + q.extraBytes
  | .enter _ => 2
  | .entersav _ _ => 6
  | .gmov _ _ mo => 2 + mo.extraBytes
  | .gsto _ _ mo => 2 + mo.extraBytes
  | .halt => 2
  | .jump _ j => 2 + j.extraBytes
  | .jumpb _ => 4
  | .jumpf _ => 4
  | .leal q _ => 2 + q.extraBytes
  | .leave _ => 2
  | .leaveres _ _ => 6
  | .movbl q _ => 2 + q.extraBytes
  | .movbw q _ => 2 + q.extraBytes
  | .movd q _ => 2 + q.extraBytes
  | .movf q _ => 2 + q.extraBytes
  | .movflags q => 2 + q.extraBytes
  | .movl q _ => 2 + q.extraBytes
  | .movw q _ => 2 + q.extraBytes
  | .movwl q _ => 2 + q.extraBytes
  | .muld q _ => 2 + q.extraBytes
  | .mulf q _ => 2 + q.extraBytes
  | .mulsl q _ => 2 + q.extraBytes
  | .mulsw q _ => 2 + q.extraBytes
  | .mulswl q _ => 2 + q.extraBytes
  | .mulul q _ => 2 + q.extraBytes
  | .muluw q _ => 2 + q.extraBytes
  | .muluwl q _ => 2 + q.extraBytes
  | .negd q _ => 2 + q.extraBytes
  | .negf q _ => 2 + q.extraBytes
  | .negl q _ => 2 + q.extraBytes
  | .negw q _ => 2 + q.extraBytes
  | .nop => 2
  | .notl q _ => 2 + q.extraBytes
  | .notw q _ => 2 + q.extraBytes
  | .orl q _ => 2 + q.extraBytes
  | .orw q _ => 2 + q.extraBytes
  | .popd q => 2 + q.extraBytes
  | .popf q => 2 + q.extraBytes
  | .popl q => 2 + q.extraBytes
  | .popregs _ => 6
  | .popw q => 2 + q.extraBytes
  | .pushd q => 2 + q.extraBytes
  | .pushf q => 2 + q.extraBytes
  | .pushl q => 2 + q.extraBytes
  | .pushregs _ => 6
  | .pushw q => 2 + q.extraBytes
  | .remsl q _ => 2 + q.extraBytes
  | .remsw q _ => 2 + q.extraBytes
  | .remul q _ => 2 + q.extraBytes
  | .remuw q _ => 2 + q.extraBytes
  | .ret _ => 2
  | .rlil _ _ => 2
  | .rliw _ _ => 2
  | .rll q _ => 2 + q.extraBytes
  | .rlw q _ => 2 + q.extraBytes
  | .rril _ _ => 2
  | .rriw _ _ => 2
  | .rrl q _ => 2 + q.extraBytes
  | .rrw q _ => 2 + q.extraBytes
  | .set0l q _ => 2 + q.extraBytes
  | .set0w q _ => 2 + q.extraBytes
  | .set1l q _ => 2 + q.extraBytes
  | .set1w q _ => 2 + q.extraBytes
  | .slil _ _ => 2
  | .sliw _ _ => 2
  | .sll q _ => 2 + q.extraBytes
  | .slw q _ => 2 + q.extraBytes
  | .sqrtd q _ => 2 + q.extraBytes
  | .sqrtf q _ => 2 + q.extraBytes
  | .srail _ _ => 2
  | .sraiw _ _ => 2
  | .sral q _ => 2 + q.extraBytes
  | .sraw q _ => 2 + q.extraBytes
  | .srlil _ _ => 2
  | .srliw _ _ => 2
  | .srll q _ => 2 + q.extraBytes
  | .srlw q _ => 2 + q.extraBytes
  | .stod q _ => 2 + q.extraBytes
  | .stof q _ => 2 + q.extraBytes
  | .stoflags q => 2 + q.extraBytes
  | .stol q _ => 2 + q.extraBytes
  | .stolb q _ => 2 + q.extraBytes
  | .stolw q _ => 2 + q.extraBytes
  | .stow q _ => 2 + q.extraBytes
  | .stowb q _ => 2 + q.extraBytes
  | .subcl q _ => 2 + q.extraBytes
  | .subd q _ => 2 + q.extraBytes
  | .subf q _ => 2 + q.extraBytes
  | .subl q _ => 2 + q.extraBytes
  | .subswl q _ => 2 + q.extraBytes
  | .subuwl q _ => 2 + q.extraBytes
  | .subw q _ => 2 + q.extraBytes
  | .xorl q _ => 2 + q.extraBytes
  | .xorw q _ => 2 + q.extraBytes

/-! ## Decoding -/

/-- A <0-byte>, which is zero (30_encoding.md R104, R109). -/
def zeroByte (off : Nat) (bs : List Byte) : Except DecodeError Unit := do
  let z ← field 1 off bs
  if z = 0 then return () else .error .reserved

/-- The x2-byte, whose bits 7:5 are zero (30_encoding.md R107, R109). -/
def x2Byte (off : Nat) (bs : List Byte) : Except DecodeError Nat := do
  let x2 ← field 1 off bs
  if x2 / 32 = 0 then return x2 else .error .reserved

/-- The x-bytes at offset `off`, whose x1-byte is `x1`, and the bytes after them (30_encoding.md R105 to R107). -/
def decodeX (off x1 : Nat) (bs : List Byte) : Except DecodeError XMode :=
  if x1Reserved x1 then .error .reserved
  else if x1 / 32 % 2 = 0 then
    match x1 / 64 with
    | 0 => do
      zeroByte (off + 1) bs
      return .i (scaleOf (x1 / 8)) (regOf x1)
    | 1 => do
      let d ← field 1 (off + 1) bs
      return .id1 (scaleOf (x1 / 8)) (regOf x1) (BitVec.ofNat 8 d)
    | 2 => do
      let d ← field 3 (off + 1) bs
      return .id3 (scaleOf (x1 / 8)) (regOf x1) (BitVec.ofNat 24 d)
    | _ => do
      zeroByte (off + 1) bs
      let d ← field 4 (off + 2) bs
      return .id4 (scaleOf (x1 / 8)) (regOf x1) (BitVec.ofNat 32 d)
  else if x1 / 16 % 2 = 0 then
    match x1 / 64 with
    | 0 => do
      zeroByte (off + 1) bs
      return .b (regOf x1)
    | 1 => do
      let d ← field 1 (off + 1) bs
      return .bd1 (regOf x1) (BitVec.ofNat 8 d)
    | 2 => do
      let d ← field 3 (off + 1) bs
      return .bd3 (regOf x1) (BitVec.ofNat 24 d)
    | _ => do
      zeroByte (off + 1) bs
      let d ← field 4 (off + 2) bs
      return .bd4 (regOf x1) (BitVec.ofNat 32 d)
  else do
    let x2 ← x2Byte (off + 1) bs
    match x1 / 64 with
    | 0 => return .bi (regOf x1) (scaleOf (x2 / 8)) (regOf x2)
    | 2 =>
      let d ← field 2 (off + 2) bs
      return .bid2 (regOf x1) (scaleOf (x2 / 8)) (regOf x2) (BitVec.ofNat 16 d)
    | _ =>
      let d ← field 4 (off + 2) bs
      return .bid4 (regOf x1) (scaleOf (x2 / 8)) (regOf x2) (BitVec.ofNat 32 d)

/-- An immediate that is read, then refused where the specifier wants an address (30_encoding.md R97). -/
def immFor {n : Nat} (spec : QSpec) (q : QOp n) : Except DecodeError (QOp n) :=
  if spec = .address then .error .reserved else .ok q

/-- The q-operand of a type with `n`-bit immediates, from the q-field of the second byte (30_encoding.md R87 to R99). -/
def decodeQ (n : Nat) (spec : QSpec) (bs : List Byte) (b1 : Nat) : Except DecodeError (QOp n) :=
  match b1 / 64 with
  | 0 => return .reg (regOf (b1 / 8))
  | 1 => return .base (regOf (b1 / 8))
  | 2 => do
    let d ← field 2 2 bs
    return .bd2 (regOf (b1 / 8)) (BitVec.ofNat 16 d)
  | _ =>
    match b1 / 8 % 8 with
    | 0 => do
      let a ← field 4 2 bs
      return .mema (BitVec.ofNat 32 a)
    | 1 => immFor spec .immMinus1
    | 2 => immFor spec .imm0
    | 3 => immFor spec .imm1
    | 4 => do
      let v ← field (immBytes n) 2 bs
      if v < 2 ^ n then immFor spec (.immv (BitVec.ofNat n v)) else .error .reserved
    | 5 =>
      if spec = .value then .error .reserved
      else do
        let h ← field 2 2 bs
        immFor spec (.imm2 (BitVec.ofNat 16 h))
    | 6 => .error .reserved
    | _ => do
      let x1 ← field 1 2 bs
      let m ← decodeX 2 x1 bs
      return .x m

/-- The qr format (30_encoding.md R85). -/
def decodeQR (n : Nat) (spec : QSpec) (bs : List Byte) (b1 : Nat) (mk : QOp n → Reg → Instr) :
    Except DecodeError Instr := do
  let q ← decodeQ n spec bs b1
  return mk q (regOf b1)

/-- The qc format, whose condition number is `high` plus the c-field (30_encoding.md R112). -/
def decodeQC (n high : Nat) (bs : List Byte) (b1 : Nat) (mk : QOp n → Cond → Instr) :
    Except DecodeError Instr :=
  match Cond.ofNumber (high + b1 % 8) with
  | none => .error .reserved
  | some c => do
    let q ← decodeQ n .address bs b1
    return mk q c

/-- The qo format, whose r-field is 000 (30_encoding.md R113). -/
def decodeQO (n : Nat) (spec : QSpec) (bs : List Byte) (b1 : Nat) (mk : QOp n → Instr) :
    Except DecodeError Instr :=
  if b1 % 8 = 0 then do
    let q ← decodeQ n spec bs b1
    return mk q
  else .error .reserved

/-- The ir format (30_encoding.md R114). -/
def decodeIR (b1 : Nat) (mk : Fin 32 → Reg → Instr) : Except DecodeError Instr :=
  return mk (Fin.ofNat 32 (b1 / 8)) (regOf b1)

/-- The m-operand after an mr-byte with g-field `g` (30_encoding.md R116 to R118). -/
def decodeM (p : Params) (bs : List Byte) (g : Nat) (n : SizeCode) : Except DecodeError MOp :=
  if g = 0 then do
    let a ← field 4 2 bs
    return .mmema (BitVec.ofNat 32 a)
  else do
    let x1 ← field 1 2 bs
    if x1 = p.mregX1.toNat then
      let x2 ← x2Byte 3 bs
      if (GReg.ofNumber x2).groupFits n then return .mreg (GReg.ofNumber x2) else .error .reserved
    else
      let m ← decodeX 2 x1 bs
      return .x m

/-- The mr format (30_encoding.md R115); a register group that does not fit is refused (R133 (k)). -/
def decodeMR (p : Params) (bs : List Byte) (b1 : Nat) (mk : SizeCode → GReg → MOp → Instr) :
    Except DecodeError Instr :=
  if (GReg.ofNumber (p.mrLayout.rField b1)).groupFits (Fin.ofNat 4 (p.mrLayout.nField b1)) then do
    let m ← decodeM p bs (p.mrLayout.gField b1) (Fin.ofNat 4 (p.mrLayout.nField b1))
    return mk (Fin.ofNat 4 (p.mrLayout.nField b1)) (GReg.ofNumber (p.mrLayout.rField b1)) m
  else .error .reserved

/-- The j-operand, from the j-field of the second byte (30_encoding.md R122 to R126). -/
def decodeJ (bs : List Byte) (b1 : Nat) : Except DecodeError JOp :=
  if b1 % 16 < 8 then return .jregi (regOf b1)
  else
    match b1 % 16 with
    | 8 => do
      let d ← field 2 2 bs
      return .pcrp (BitVec.ofNat 16 d)
    | 9 => do
      let d ← field 2 2 bs
      return .pcrm (BitVec.ofNat 16 d)
    | 10 => do
      let a ← field 4 2 bs
      return .jmema (BitVec.ofNat 32 a)
    | 11 => do
      let a ← field 4 2 bs
      return .jmemai (BitVec.ofNat 32 a)
    | 12 => do
      let d ← field 2 2 bs
      return .sprmi (BitVec.ofNat 16 d)
    | _ => .error .reserved

/-- The ij format (30_encoding.md R120). -/
def decodeIJ (bs : List Byte) (b1 : Nat) (mk : Cond → JOp → Instr) : Except DecodeError Instr :=
  match Cond.ofNumber (b1 / 16) with
  | none => .error .reserved
  | some c => do
    let j ← decodeJ bs b1
    return mk c j

/-- The a3 format; the second byte is the low byte of the offset (30_encoding.md R127). -/
def decodeA3 (bs : List Byte) (b1 : Nat) (mk : BitVec 24 → Instr) : Except DecodeError Instr := do
  let h ← field 2 2 bs
  return mk (BitVec.ofNat 24 (b1 + 256 * h))

/-- The b1 format (30_encoding.md R128). -/
def decodeB1 (b1 : Nat) (mk : Byte → Instr) : Except DecodeError Instr :=
  return mk (BitVec.ofNat 8 b1)

/-- The b14 format (30_encoding.md R129). -/
def decodeB14 (bs : List Byte) (b1 : Nat) (mk : Byte → Long → Instr) : Except DecodeError Instr := do
  let k ← field 4 2 bs
  return mk (BitVec.ofNat 8 b1) (BitVec.ofNat 32 k)

/-- The n0 format, whose second byte is zero (30_encoding.md R130). -/
def decodeN0 (b1 : Nat) (i : Instr) : Except DecodeError Instr :=
  if b1 = 0 then return i else .error .reserved

/-- The n04 format, whose second byte is zero (30_encoding.md R130). -/
def decodeN04 (bs : List Byte) (b1 : Nat) (mk : Long → Instr) : Except DecodeError Instr :=
  if b1 = 0 then do
    let k ← field 4 2 bs
    return mk (BitVec.ofNat 32 k)
  else .error .reserved

/-- The rest of the instruction after its opcode byte, by the mnemonic's format and operand specifiers
(30_encoding.md R131). `b1` is the value of the second byte, already read (20_memory.md R67). -/
def decodeOperands (p : Params) (bs : List Byte) (b1 : Nat) : Mnemonic → Except DecodeError Instr
  | .absd => decodeQR 64 .value bs b1 .absd
  | .absf => decodeQR 32 .value bs b1 .absf
  | .absl => decodeQR 32 .longValue bs b1 .absl
  | .absw => decodeQR 16 .value bs b1 .absw
  | .addcl => decodeQR 32 .longValue bs b1 .addcl
  | .addd => decodeQR 64 .value bs b1 .addd
  | .addf => decodeQR 32 .value bs b1 .addf
  | .addl => decodeQR 32 .longValue bs b1 .addl
  | .addswl => decodeQR 16 .value bs b1 .addswl
  | .adduwl => decodeQR 16 .value bs b1 .adduwl
  | .addw => decodeQR 16 .value bs b1 .addw
  | .andl => decodeQR 32 .longValue bs b1 .andl
  | .andw => decodeQR 16 .value bs b1 .andw
  | .call => decodeIJ bs b1 .call
  | .callb => decodeA3 bs b1 .callb
  | .callf => decodeA3 bs b1 .callf
  | .cmpd => decodeQR 64 .value bs b1 .cmpd
  | .cmpf => decodeQR 32 .value bs b1 .cmpf
  | .cmpl => decodeQR 32 .longValue bs b1 .cmpl
  | .cmplb => decodeQR 8 .value bs b1 .cmplb
  | .cmpw => decodeQR 16 .value bs b1 .cmpw
  | .cmpwb => decodeQR 8 .value bs b1 .cmpwb
  | .cvtbsl => decodeQR 8 .value bs b1 .cvtbsl
  | .cvtbsw => decodeQR 8 .value bs b1 .cvtbsw
  | .cvtbzl => decodeQR 8 .value bs b1 .cvtbzl
  | .cvtbzw => decodeQR 8 .value bs b1 .cvtbzw
  | .cvtdf => decodeQR 64 .value bs b1 .cvtdf
  | .cvtfd => decodeQR 32 .value bs b1 .cvtfd
  | .cvtsld => decodeQR 32 .longValue bs b1 .cvtsld
  | .cvtslf => decodeQR 32 .longValue bs b1 .cvtslf
  | .cvttdsl => decodeQR 64 .value bs b1 .cvttdsl
  | .cvttdul => decodeQR 64 .value bs b1 .cvttdul
  | .cvttfsl => decodeQR 32 .value bs b1 .cvttfsl
  | .cvttful => decodeQR 32 .value bs b1 .cvttful
  | .cvtuld => decodeQR 32 .longValue bs b1 .cvtuld
  | .cvtulf => decodeQR 32 .longValue bs b1 .cvtulf
  | .cvtwsl => decodeQR 16 .value bs b1 .cvtwsl
  | .cvtwzl => decodeQR 16 .value bs b1 .cvtwzl
  | .divd => decodeQR 64 .value bs b1 .divd
  | .divf => decodeQR 32 .value bs b1 .divf
  | .divrsl => decodeQR 32 .longValue bs b1 .divrsl
  | .divrslw => decodeQR 16 .value bs b1 .divrslw
  | .divrsw => decodeQR 16 .value bs b1 .divrsw
  | .divrul => decodeQR 32 .longValue bs b1 .divrul
  | .divrulw => decodeQR 16 .value bs b1 .divrulw
  | .divruw => decodeQR 16 .value bs b1 .divruw
  | .divsl => decodeQR 32 .longValue bs b1 .divsl
  | .divsw => decodeQR 16 .value bs b1 .divsw
  | .divul => decodeQR 32 .longValue bs b1 .divul
  | .divuw => decodeQR 16 .value bs b1 .divuw
  | .enter => decodeB1 b1 .enter
  | .entersav => decodeB14 bs b1 .entersav
  | .gmov => decodeMR p bs b1 .gmov
  | .gsto => decodeMR p bs b1 .gsto
  | .halt => decodeN0 b1 .halt
  | .jump => decodeIJ bs b1 .jump
  | .jumpb => decodeA3 bs b1 .jumpb
  | .jumpf => decodeA3 bs b1 .jumpf
  | .leal => decodeQR 32 .longValue bs b1 .leal
  | .leave => decodeB1 b1 .leave
  | .leaveres => decodeB14 bs b1 .leaveres
  | .movbl => decodeQR 8 .value bs b1 .movbl
  | .movbw => decodeQR 8 .value bs b1 .movbw
  | .movd => decodeQR 64 .value bs b1 .movd
  | .movf => decodeQR 32 .value bs b1 .movf
  | .movflags => decodeQO 16 .value bs b1 .movflags
  | .movl => decodeQR 32 .longValue bs b1 .movl
  | .movw => decodeQR 16 .value bs b1 .movw
  | .movwl => decodeQR 16 .value bs b1 .movwl
  | .muld => decodeQR 64 .value bs b1 .muld
  | .mulf => decodeQR 32 .value bs b1 .mulf
  | .mulsl => decodeQR 32 .longValue bs b1 .mulsl
  | .mulsw => decodeQR 16 .value bs b1 .mulsw
  | .mulswl => decodeQR 16 .value bs b1 .mulswl
  | .mulul => decodeQR 32 .longValue bs b1 .mulul
  | .muluw => decodeQR 16 .value bs b1 .muluw
  | .muluwl => decodeQR 16 .value bs b1 .muluwl
  | .negd => decodeQR 64 .value bs b1 .negd
  | .negf => decodeQR 32 .value bs b1 .negf
  | .negl => decodeQR 32 .longValue bs b1 .negl
  | .negw => decodeQR 16 .value bs b1 .negw
  | .nop => decodeN0 b1 .nop
  | .notl => decodeQR 32 .longValue bs b1 .notl
  | .notw => decodeQR 16 .value bs b1 .notw
  | .orl => decodeQR 32 .longValue bs b1 .orl
  | .orw => decodeQR 16 .value bs b1 .orw
  | .popd => decodeQO 64 .address bs b1 .popd
  | .popf => decodeQO 32 .address bs b1 .popf
  | .popl => decodeQO 32 .address bs b1 .popl
  | .popregs => decodeN04 bs b1 .popregs
  | .popw => decodeQO 16 .address bs b1 .popw
  | .pushd => decodeQO 64 .value bs b1 .pushd
  | .pushf => decodeQO 32 .value bs b1 .pushf
  | .pushl => decodeQO 32 .longValue bs b1 .pushl
  | .pushregs => decodeN04 bs b1 .pushregs
  | .pushw => decodeQO 16 .value bs b1 .pushw
  | .remsl => decodeQR 32 .longValue bs b1 .remsl
  | .remsw => decodeQR 16 .value bs b1 .remsw
  | .remul => decodeQR 32 .longValue bs b1 .remul
  | .remuw => decodeQR 16 .value bs b1 .remuw
  | .ret => decodeB1 b1 .ret
  | .rlil => decodeIR b1 .rlil
  | .rliw => decodeIR b1 .rliw
  | .rll => decodeQR 8 .value bs b1 .rll
  | .rlw => decodeQR 8 .value bs b1 .rlw
  | .rril => decodeIR b1 .rril
  | .rriw => decodeIR b1 .rriw
  | .rrl => decodeQR 8 .value bs b1 .rrl
  | .rrw => decodeQR 8 .value bs b1 .rrw
  | .set0l => decodeQC 32 0 bs b1 .set0l
  | .set0w => decodeQC 16 0 bs b1 .set0w
  | .set1l => decodeQC 32 8 bs b1 .set1l
  | .set1w => decodeQC 16 8 bs b1 .set1w
  | .slil => decodeIR b1 .slil
  | .sliw => decodeIR b1 .sliw
  | .sll => decodeQR 8 .value bs b1 .sll
  | .slw => decodeQR 8 .value bs b1 .slw
  | .sqrtd => decodeQR 64 .value bs b1 .sqrtd
  | .sqrtf => decodeQR 32 .value bs b1 .sqrtf
  | .srail => decodeIR b1 .srail
  | .sraiw => decodeIR b1 .sraiw
  | .sral => decodeQR 8 .value bs b1 .sral
  | .sraw => decodeQR 8 .value bs b1 .sraw
  | .srlil => decodeIR b1 .srlil
  | .srliw => decodeIR b1 .srliw
  | .srll => decodeQR 8 .value bs b1 .srll
  | .srlw => decodeQR 8 .value bs b1 .srlw
  | .stod => decodeQR 64 .address bs b1 .stod
  | .stof => decodeQR 32 .address bs b1 .stof
  | .stoflags => decodeQO 16 .address bs b1 .stoflags
  | .stol => decodeQR 32 .address bs b1 .stol
  | .stolb => decodeQR 8 .address bs b1 .stolb
  | .stolw => decodeQR 16 .address bs b1 .stolw
  | .stow => decodeQR 16 .address bs b1 .stow
  | .stowb => decodeQR 8 .address bs b1 .stowb
  | .subcl => decodeQR 32 .longValue bs b1 .subcl
  | .subd => decodeQR 64 .value bs b1 .subd
  | .subf => decodeQR 32 .value bs b1 .subf
  | .subl => decodeQR 32 .longValue bs b1 .subl
  | .subswl => decodeQR 16 .value bs b1 .subswl
  | .subuwl => decodeQR 16 .value bs b1 .subuwl
  | .subw => decodeQR 16 .value bs b1 .subw
  | .xorl => decodeQR 32 .longValue bs b1 .xorl
  | .xorw => decodeQR 16 .value bs b1 .xorw

/-- The mnemonic an opcode byte names (30_encoding.md R80, R131). -/
def Params.mnemonicOf (p : Params) (op : Byte) : Option Mnemonic :=
  (p.opcodeMap.find? fun e => e.2 == op).map Prod.fst

/-- The instruction at the start of a sequence of bytes; what follows it is not looked at
(30_encoding.md R83, 20_memory.md R67). -/
def decode (p : Params) (bs : List Byte) : Except DecodeError Instr := do
  let op ← field 1 0 bs
  match p.mnemonicOf (BitVec.ofNat 8 op) with
  | none => .error (.illegalOpcode (BitVec.ofNat 8 op))
  | some m => do
    let b1 ← field 1 1 bs
    decodeOperands p bs b1 m

/-- The bytes of an instruction given as the opcode table numbers its bits (30_encoding.md R84): each 16-bit
unit has the byte at the lower address in its bits 15:8. Byte `j` of the ten bytes of the longest instruction;
every bit from `nbits` on is 0. -/
def tableByte (nbits w j : Nat) : Byte :=
  BitVec.ofNat 8 (w % 2 ^ nbits / 2 ^ (16 * (j / 2) + 8 * (1 - j % 2)))

/-- The ten bytes an instruction of the opcode table occupies (see `tableByte`). -/
def tableBytes (nbits w : Nat) : List Byte := (List.range 10).map (tableByte nbits w)

/-- The instruction the decoder reads from a word of the opcode table, under the default parameters. -/
def decodeTableWord (nbits w : Nat) : Option Instr :=
  match decode defaultParams (tableBytes nbits w) with
  | .ok i => some i
  | .error _ => none

/-! ## Encoding -/

/-- The x-bytes of a mode and the bytes after them (30_encoding.md R105 to R107). -/
def encodeX : XMode → List Byte
  | .i s k => [BitVec.ofNat 8 (8 * s.val + k.val), 0]
  | .id1 s k d => [BitVec.ofNat 8 (64 + 8 * s.val + k.val), d]
  | .id3 s k d => BitVec.ofNat 8 (128 + 8 * s.val + k.val) :: leBytes 3 d.toNat
  | .id4 s k d => BitVec.ofNat 8 (192 + 8 * s.val + k.val) :: 0 :: leBytes 4 d.toNat
  | .b k => [BitVec.ofNat 8 (32 + k.val), 0]
  | .bd1 k d => [BitVec.ofNat 8 (96 + k.val), d]
  | .bd3 k d => BitVec.ofNat 8 (160 + k.val) :: leBytes 3 d.toNat
  | .bd4 k d => BitVec.ofNat 8 (224 + k.val) :: 0 :: leBytes 4 d.toNat
  | .bi k s j => [BitVec.ofNat 8 (48 + k.val), BitVec.ofNat 8 (8 * s.val + j.val)]
  | .bid2 k s j d =>
    BitVec.ofNat 8 (176 + k.val) :: BitVec.ofNat 8 (8 * s.val + j.val) :: leBytes 2 d.toNat
  | .bid4 k s j d =>
    BitVec.ofNat 8 (240 + k.val) :: BitVec.ofNat 8 (8 * s.val + j.val) :: leBytes 4 d.toNat

/-- The qr-byte with low field `r` and the q-bytes (30_encoding.md R87). -/
def encodeQ {n : Nat} (q : QOp n) (r : Nat) : List Byte :=
  match q with
  | .reg k => [BitVec.ofNat 8 (8 * k.val + r)]
  | .base k => [BitVec.ofNat 8 (64 + 8 * k.val + r)]
  | .bd2 k d => BitVec.ofNat 8 (128 + 8 * k.val + r) :: leBytes 2 d.toNat
  | .mema a => BitVec.ofNat 8 (192 + r) :: leBytes 4 a.toNat
  | .immMinus1 => [BitVec.ofNat 8 (200 + r)]
  | .imm0 => [BitVec.ofNat 8 (208 + r)]
  | .imm1 => [BitVec.ofNat 8 (216 + r)]
  | .immv v => BitVec.ofNat 8 (224 + r) :: leBytes (immBytes n) v.toNat
  | .imm2 h => BitVec.ofNat 8 (232 + r) :: leBytes 2 h.toNat
  | .x m => BitVec.ofNat 8 (248 + r) :: encodeX m

/-- The mr-byte and the m-bytes (30_encoding.md R115 to R118). -/
def encodeM (p : Params) (n : SizeCode) (r : GReg) (m : MOp) : List Byte :=
  match m with
  | .mmema a => BitVec.ofNat 8 (p.mrLayout.pack n.val 0 r.number) :: leBytes 4 a.toNat
  | .mreg g =>
    [BitVec.ofNat 8 (p.mrLayout.pack n.val 1 r.number), p.mregX1, BitVec.ofNat 8 g.number]
  | .x m => BitVec.ofNat 8 (p.mrLayout.pack n.val 1 r.number) :: encodeX m

/-- The ij-byte and the j-bytes (30_encoding.md R120 to R126). -/
def encodeJ (c : Cond) (j : JOp) : List Byte :=
  match j with
  | .jregi k => [BitVec.ofNat 8 (16 * c.number + k.val)]
  | .pcrp d => BitVec.ofNat 8 (16 * c.number + 8) :: leBytes 2 d.toNat
  | .pcrm d => BitVec.ofNat 8 (16 * c.number + 9) :: leBytes 2 d.toNat
  | .jmema a => BitVec.ofNat 8 (16 * c.number + 10) :: leBytes 4 a.toNat
  | .jmemai a => BitVec.ofNat 8 (16 * c.number + 11) :: leBytes 4 a.toNat
  | .sprmi d => BitVec.ofNat 8 (16 * c.number + 12) :: leBytes 2 d.toNat

/-- The bytes of an instruction after its opcode byte (30_encoding.md R85 to R130). -/
def encodeOperands (p : Params) : Instr → List Byte
  | .absd q r => encodeQ q r.val
  | .absf q r => encodeQ q r.val
  | .absl q r => encodeQ q r.val
  | .absw q r => encodeQ q r.val
  | .addcl q r => encodeQ q r.val
  | .addd q r => encodeQ q r.val
  | .addf q r => encodeQ q r.val
  | .addl q r => encodeQ q r.val
  | .addswl q r => encodeQ q r.val
  | .adduwl q r => encodeQ q r.val
  | .addw q r => encodeQ q r.val
  | .andl q r => encodeQ q r.val
  | .andw q r => encodeQ q r.val
  | .call c j => encodeJ c j
  | .callb off => leBytes 3 off.toNat
  | .callf off => leBytes 3 off.toNat
  | .cmpd q r => encodeQ q r.val
  | .cmpf q r => encodeQ q r.val
  | .cmpl q r => encodeQ q r.val
  | .cmplb q r => encodeQ q r.val
  | .cmpw q r => encodeQ q r.val
  | .cmpwb q r => encodeQ q r.val
  | .cvtbsl q r => encodeQ q r.val
  | .cvtbsw q r => encodeQ q r.val
  | .cvtbzl q r => encodeQ q r.val
  | .cvtbzw q r => encodeQ q r.val
  | .cvtdf q r => encodeQ q r.val
  | .cvtfd q r => encodeQ q r.val
  | .cvtsld q r => encodeQ q r.val
  | .cvtslf q r => encodeQ q r.val
  | .cvttdsl q r => encodeQ q r.val
  | .cvttdul q r => encodeQ q r.val
  | .cvttfsl q r => encodeQ q r.val
  | .cvttful q r => encodeQ q r.val
  | .cvtuld q r => encodeQ q r.val
  | .cvtulf q r => encodeQ q r.val
  | .cvtwsl q r => encodeQ q r.val
  | .cvtwzl q r => encodeQ q r.val
  | .divd q r => encodeQ q r.val
  | .divf q r => encodeQ q r.val
  | .divrsl q r => encodeQ q r.val
  | .divrslw q r => encodeQ q r.val
  | .divrsw q r => encodeQ q r.val
  | .divrul q r => encodeQ q r.val
  | .divrulw q r => encodeQ q r.val
  | .divruw q r => encodeQ q r.val
  | .divsl q r => encodeQ q r.val
  | .divsw q r => encodeQ q r.val
  | .divul q r => encodeQ q r.val
  | .divuw q r => encodeQ q r.val
  | .enter stkc => [stkc]
  | .entersav stkc bmsk => stkc :: leBytes 4 bmsk.toNat
  | .gmov n r m => encodeM p n r m
  | .gsto n r m => encodeM p n r m
  | .halt => [0]
  | .jump c j => encodeJ c j
  | .jumpb off => leBytes 3 off.toNat
  | .jumpf off => leBytes 3 off.toNat
  | .leal q r => encodeQ q r.val
  | .leave stkc => [stkc]
  | .leaveres stkc bmsk => stkc :: leBytes 4 bmsk.toNat
  | .movbl q r => encodeQ q r.val
  | .movbw q r => encodeQ q r.val
  | .movd q r => encodeQ q r.val
  | .movf q r => encodeQ q r.val
  | .movflags q => encodeQ q 0
  | .movl q r => encodeQ q r.val
  | .movw q r => encodeQ q r.val
  | .movwl q r => encodeQ q r.val
  | .muld q r => encodeQ q r.val
  | .mulf q r => encodeQ q r.val
  | .mulsl q r => encodeQ q r.val
  | .mulsw q r => encodeQ q r.val
  | .mulswl q r => encodeQ q r.val
  | .mulul q r => encodeQ q r.val
  | .muluw q r => encodeQ q r.val
  | .muluwl q r => encodeQ q r.val
  | .negd q r => encodeQ q r.val
  | .negf q r => encodeQ q r.val
  | .negl q r => encodeQ q r.val
  | .negw q r => encodeQ q r.val
  | .nop => [0]
  | .notl q r => encodeQ q r.val
  | .notw q r => encodeQ q r.val
  | .orl q r => encodeQ q r.val
  | .orw q r => encodeQ q r.val
  | .popd q => encodeQ q 0
  | .popf q => encodeQ q 0
  | .popl q => encodeQ q 0
  | .popregs bmsk => 0 :: leBytes 4 bmsk.toNat
  | .popw q => encodeQ q 0
  | .pushd q => encodeQ q 0
  | .pushf q => encodeQ q 0
  | .pushl q => encodeQ q 0
  | .pushregs bmsk => 0 :: leBytes 4 bmsk.toNat
  | .pushw q => encodeQ q 0
  | .remsl q r => encodeQ q r.val
  | .remsw q r => encodeQ q r.val
  | .remul q r => encodeQ q r.val
  | .remuw q r => encodeQ q r.val
  | .ret stkc => [stkc]
  | .rlil sc r => [BitVec.ofNat 8 (8 * sc.val + r.val)]
  | .rliw sc r => [BitVec.ofNat 8 (8 * sc.val + r.val)]
  | .rll q r => encodeQ q r.val
  | .rlw q r => encodeQ q r.val
  | .rril sc r => [BitVec.ofNat 8 (8 * sc.val + r.val)]
  | .rriw sc r => [BitVec.ofNat 8 (8 * sc.val + r.val)]
  | .rrl q r => encodeQ q r.val
  | .rrw q r => encodeQ q r.val
  | .set0l q c => encodeQ q (c.number % 8)
  | .set0w q c => encodeQ q (c.number % 8)
  | .set1l q c => encodeQ q (c.number % 8)
  | .set1w q c => encodeQ q (c.number % 8)
  | .slil sc r => [BitVec.ofNat 8 (8 * sc.val + r.val)]
  | .sliw sc r => [BitVec.ofNat 8 (8 * sc.val + r.val)]
  | .sll q r => encodeQ q r.val
  | .slw q r => encodeQ q r.val
  | .sqrtd q r => encodeQ q r.val
  | .sqrtf q r => encodeQ q r.val
  | .srail sc r => [BitVec.ofNat 8 (8 * sc.val + r.val)]
  | .sraiw sc r => [BitVec.ofNat 8 (8 * sc.val + r.val)]
  | .sral q r => encodeQ q r.val
  | .sraw q r => encodeQ q r.val
  | .srlil sc r => [BitVec.ofNat 8 (8 * sc.val + r.val)]
  | .srliw sc r => [BitVec.ofNat 8 (8 * sc.val + r.val)]
  | .srll q r => encodeQ q r.val
  | .srlw q r => encodeQ q r.val
  | .stod q r => encodeQ q r.val
  | .stof q r => encodeQ q r.val
  | .stoflags q => encodeQ q 0
  | .stol q r => encodeQ q r.val
  | .stolb q r => encodeQ q r.val
  | .stolw q r => encodeQ q r.val
  | .stow q r => encodeQ q r.val
  | .stowb q r => encodeQ q r.val
  | .subcl q r => encodeQ q r.val
  | .subd q r => encodeQ q r.val
  | .subf q r => encodeQ q r.val
  | .subl q r => encodeQ q r.val
  | .subswl q r => encodeQ q r.val
  | .subuwl q r => encodeQ q r.val
  | .subw q r => encodeQ q r.val
  | .xorl q r => encodeQ q r.val
  | .xorw q r => encodeQ q r.val

/-- The opcode byte of a mnemonic (30_encoding.md R131); 0 where the map lacks it, which no well-formed map does. -/
def Params.opcodeOf (p : Params) (m : Mnemonic) : Byte :=
  match p.opcodeMap.find? fun e => e.1 == m with
  | some e => e.2
  | none => 0

/-- The bytes of an instruction, lowest address first (30_encoding.md). -/
def encode (p : Params) (i : Instr) : List Byte := p.opcodeOf i.mnemonic :: encodeOperands p i

end Sys2Proof
end

