-- ==== Sys2Proof/Machine/Memory.lean ====
section
/-! DEFINITION. The memory (20_memory.md): the bytes that differ from what an unlisted byte reads as, in one
canonical form (addresses strictly rising, no byte equal to the unlisted one), so that equal memories are
equal data. -/

namespace Sys2Proof.Machine

/-- Memory as a list of (address, byte) pairs (10_state.md R34). -/
abbrev Memory := List Host.Cell

/-- What a byte that nothing has written reads as. DESIGN CHOICE (log 7): 10_state.md R37 leaves it unspecified. -/
def unlistedByte : Byte := 0

/-- The byte at an address (20_memory.md R50). -/
def Memory.read : Memory → Nat → Byte
  | [], _ => unlistedByte
  | (b, v) :: m, a => if a = b then v else Memory.read m a

/-- Store one byte; storing the unlisted byte takes the entry out. -/
def Memory.write : Memory → Nat → Byte → Memory
  | [], a, v => if v = unlistedByte then [] else [(a, v)]
  | (b, u) :: m, a, v =>
    if a < b then (if v = unlistedByte then (b, u) :: m else (a, v) :: (b, u) :: m)
    else if a = b then (if v = unlistedByte then m else (a, v) :: m)
    else (b, u) :: Memory.write m a v

/-- The little-endian number in the `n` bytes from `a` on: the sum of mem[a + k] * 256^k (20_memory.md R52). -/
def Memory.readLE (m : Memory) (a : Nat) : Nat → Nat
  | 0 => 0
  | n + 1 => (m.read a).toNat + 256 * Memory.readLE m (a + 1) n

/-- Store the low 8 * `n` bits of `v` little-endian from `a` on (20_memory.md R53). -/
def Memory.writeLE (m : Memory) (a : Nat) : Nat → Nat → Memory
  | 0, _ => m
  | n + 1, v => Memory.writeLE (m.write a (BitVec.ofNat 8 v)) (a + 1) n (v / 256)

/-- Store a sequence of bytes from `a` on. -/
def Memory.writeBytes (m : Memory) (a : Nat) : List Byte → Memory
  | [] => m
  | b :: bs => Memory.writeBytes (m.write a b) (a + 1) bs

/-- The canonical form: addresses strictly rising, no entry equal to the unlisted byte. -/
abbrev Memory.wf (m : Memory) : Prop :=
  m.Pairwise (fun x y => x.1 < y.1) ∧ ∀ c ∈ m, c.2 ≠ unlistedByte

/-- Every listed address is below `n` (20_memory.md R50: the bytes present are 0 .. MEMSIZE-1). -/
abbrev Memory.below (m : Memory) (n : Nat) : Prop := ∀ c ∈ m, c.1 < n

end Sys2Proof.Machine
end

