-- ==== Sys2Proof/Machine/State.lean ====
section
/-! DEFINITION. The state of VMAX (10_state.md R38) as plain data, the faults it can be in, and the state after
reset. -/

namespace Sys2Proof.Machine

/-- The seven faults with their payload (60_exceptions.md R392). A fault is not an outcome of `step`: the
instruction that raises one answers a next state whose `status` is `.fault` (60_exceptions.md R391; log 8), so
an observer still sees the final state. Every constructor is safe: it is the behaviour the spec states. -/
inductive Fault where
  /-- Code 1, raised by fetch: the opcode byte names no instruction (R393). Safe. -/
  | illegalOpcode (iaddr : Long) (opcode : Byte)
  /-- Code 2, raised by fetch: an operand field holds a reserved pattern (R394). Safe. -/
  | reservedEncoding (iaddr : Long)
  /-- Code 3, raised by fetch: the pc is odd (R395). Safe. -/
  | misalignedPC (pc : Long)
  /-- Code 4, raised by fetch and by every access to memory: `addr` + n > MEMSIZE (R396). Safe. -/
  | memoryBounds (addr : Nat)
  /-- Code 5, raised by the integer divides and remainders: the divisor is 0 (R397). Safe. -/
  | divideByZero (iaddr : Long)
  /-- Code 6, raised by the signed divides: the quotient is not representable (R398). Safe. -/
  | divideOverflow (iaddr : Long)
  /-- Code 7, raised by addcl and subcl (R399). Safe. -/
  | notAvailable (iaddr : Long)
deriving DecidableEq, Repr

/-- Why an instruction has no meaning. -/
inductive Refusal where
  /-- Raised by an arm of `exec` whose instruction has no meaning; no arm does. Safe. -/
  | notModelled (mnemonic : String)
deriving DecidableEq, Repr

/-- The status of the machine (10_state.md R33). -/
inductive Status where
  | running
  | halted
  | fault (cause : Fault)
deriving DecidableEq, Repr

/-- The state of the machine (10_state.md R38). `params` and `freeCount` are the model's own: the parameters of
00_scope.md R6, which no step changes, and the number of free values used so far (log 12). -/
structure State where
  /-- The word registers w0..w7 (R21). -/
  w : Vector Word 8
  /-- The long registers L0..L7, of which L6 is fp and L7 is sp (R22). -/
  l : Vector Long 8
  /-- The float registers f0..f7, as bit patterns (R23). -/
  f : Vector Long 8
  /-- The double registers d0..d7, as bit patterns (R24). -/
  d : Vector Quad 8
  /-- The program counter (R28). -/
  pc : Long
  /-- The flags register (R30). -/
  flags : Word
  /-- Running, Halted or Fault (R33). -/
  status : Status
  /-- The memory (R34). -/
  mem : Memory
  /-- The parameters of the machine (00_scope.md R6). -/
  params : Params
  /-- How many free values have been used (log 12). -/
  freeCount : Nat
deriving DecidableEq, Repr

/-- The state right after reset (10_state.md R37, 70_reset_and_hazards.md R421) with the default parameters,
ENTRY = 0 and an empty IMAGE. sp is MEMSIZE - 4. DESIGN CHOICE (logs 5, 6, 7): every value R37 leaves
unspecified is 0. -/
def State.reset : State where
  w := #v[0, 0, 0, 0, 0, 0, 0, 0]
  l := #v[0, 0, 0, 0, 0, 0, 0, 0xfffffffc]
  f := #v[0, 0, 0, 0, 0, 0, 0, 0]
  d := #v[0, 0, 0, 0, 0, 0, 0, 0]
  pc := 0
  flags := 0
  status := .running
  mem := []
  params := defaultParams
  freeCount := 0

end Sys2Proof.Machine
end

