-- ==== Sys2Proof/Machine/Ops.lean ====
section
/-! DEFINITION. The named operations over registers, memory, the stack and the program counter, and taking a
fault, which every meaning is written with. An operation that can raise a fault answers `.error` with it; the
meaning then takes the fault on the state it started from, so a faulting instruction changes nothing else
(60_exceptions.md R401). -/

namespace Sys2Proof.Machine

/-- What an operation answers: a state, or the fault it raises. -/
abbrev Result := Except Fault State

/-- What an instruction answers. -/
abbrev Out := Host.Outcome State Fault Refusal

/-! ## Registers (10_state.md R20 to R27) -/

/-- The word register W[k]. -/
def State.W (s : State) (k : Reg) : Word := s.w[k.val]

/-- The long register L[k]. -/
def State.L (s : State) (k : Reg) : Long := s.l[k.val]

/-- The float register F[k]. -/
def State.F (s : State) (k : Reg) : Long := s.f[k.val]

/-- The double register D[k]. -/
def State.D (s : State) (k : Reg) : Quad := s.d[k.val]

/-- W[k] <- v. -/
def State.setW (s : State) (k : Reg) (v : Word) : State := { s with w := s.w.set k.val v }

/-- L[k] <- v. -/
def State.setL (s : State) (k : Reg) (v : Long) : State := { s with l := s.l.set k.val v }

/-- F[k] <- v. -/
def State.setF (s : State) (k : Reg) (v : Long) : State := { s with f := s.f.set k.val v }

/-- D[k] <- v. -/
def State.setD (s : State) (k : Reg) (v : Quad) : State := { s with d := s.d.set k.val v }

/-- The number of the long register fp (10_state.md R22). -/
def fpReg : Reg := 6

/-- The number of the long register sp (10_state.md R22). -/
def spReg : Reg := 7

/-- The frame pointer. -/
abbrev State.fp (s : State) : Long := s.L fpReg

/-- The stack pointer. -/
abbrev State.sp (s : State) : Long := s.L spReg

/-- fp <- v. -/
abbrev State.setFp (s : State) (v : Long) : State := s.setL fpReg v

/-- sp <- v. -/
abbrev State.setSp (s : State) (v : Long) : State := s.setL spReg v

/-- pc <- v. -/
def State.setPc (s : State) (v : Long) : State := { s with pc := v }

/-- flags <- v. -/
def State.setFlags (s : State) (v : Word) : State := { s with flags := v }

/-- status <- v. -/
def State.setStatus (s : State) (v : Status) : State := { s with status := v }

/-- Memory replaced. -/
def State.setMem (s : State) (m : Memory) : State := { s with mem := m }

/-- One more free value used (log 12). -/
def State.useFree (s : State) : State := { s with freeCount := s.freeCount + 1 }

/-- The register with a general number, as an unsigned number (10_state.md R25). -/
def State.G (s : State) (g : GReg) : Nat :=
  match g.file with
  | .w => (s.W g.idx).toNat
  | .l => (s.L g.idx).toNat
  | .f => (s.F g.idx).toNat
  | .d => (s.D g.idx).toNat

/-- G[n] <- v, truncated to the register's width (10_state.md R25, 00_scope.md R10). -/
def State.setG (s : State) (g : GReg) (v : Nat) : State :=
  match g.file with
  | .w => s.setW g.idx (BitVec.ofNat 16 v)
  | .l => s.setL g.idx (BitVec.ofNat 32 v)
  | .f => s.setF g.idx (BitVec.ofNat 32 v)
  | .d => s.setD g.idx (BitVec.ofNat 64 v)

/-! ## Memory (20_memory.md R52, R53) -/

/-- MemRead(addr, n): the little-endian number at addr, or MemoryBounds where addr + n > MEMSIZE (R52). -/
def State.memRead (s : State) (addr : Long) (n : Nat) : Except Fault Nat :=
  if addr.toNat + n ≤ s.params.memSize then .ok (s.mem.readLE addr.toNat n)
  else .error (.memoryBounds addr.toNat)

/-- MemWrite(addr, n, v): the low 8 * n bits of v stored little-endian at addr, or MemoryBounds where
addr + n > MEMSIZE (R53). -/
def State.memWrite (s : State) (addr : Long) (n v : Nat) : Result :=
  if addr.toNat + n ≤ s.params.memSize then .ok (s.setMem (s.mem.writeLE addr.toNat n v))
  else .error (.memoryBounds addr.toNat)

/-! ## The stack (10_state.md R27) -/

/-- Push `n` bytes: write v at sp - n, then sp <- sp - n. -/
def State.push (s : State) (n v : Nat) : Result := do
  let t ← s.memWrite (s.sp - BitVec.ofNat 32 n) n v
  return t.setSp (s.sp - BitVec.ofNat 32 n)

/-- The `n` bytes at the top of the stack. -/
def State.top (s : State) (n : Nat) : Except Fault Nat := s.memRead s.sp n

/-- sp <- sp + n. -/
def State.drop (s : State) (n : Nat) : State := s.setSp (s.sp + BitVec.ofNat 32 n)

/-! ## Faults and the end of an instruction -/

/-- Taking a fault (60_exceptions.md R391): status <- Fault(X, info) and nothing else; the pc keeps the address
of the faulting instruction, no handler runs, no mode changes. There is no return from a fault (R404). -/
def State.raise (s : State) (x : Fault) : State := s.setStatus (.fault x)

/-- The address of the byte following an instruction of `n` bytes at the pc, modulo 2^32 (10_state.md R28). -/
def State.npc (s : State) (n : Nat) : Long := s.pc + BitVec.ofNat 32 n

/-- The end of an instruction that started in `s`: its result, or the fault taken on `s` (R401). -/
def finish (s : State) (r : Result) : Out :=
  match r with
  | .ok t => .next t
  | .error x => .next (s.raise x)

/-- The end of an instruction of `n` bytes that does not transfer control: pc <- npc after its effects
(40_data_movement.md R140). -/
def complete (s : State) (n : Nat) (r : Result) : Out :=
  finish s (r.map fun t => t.setPc (s.npc n))

end Sys2Proof.Machine
end

