-- ==== Sys2Proof/Machine/Float.lean ====
section
/-! DEFINITION. The floating-point model (44_convert_compare.md R300, 41_add_sub_mul.md R181): the two IEEE 754
formats, rounding to nearest with ties to even, and the operations on bit patterns. A finite value is a sign and
a magnitude counted in units of the least denormal of its format, so every operation is exact on numbers before its
one rounding. `none` is a NaN result, whose pattern the spec leaves open (log 9). -/

namespace Sys2Proof.Machine

/-- An IEEE 754 binary format (00_scope.md R12). -/
structure FloatFormat where
  /-- The width of the fraction field. -/
  fracBits : Nat
  /-- The width of the exponent field. -/
  expBits : Nat
deriving DecidableEq, Repr

/-- binary32, the format of float (00_scope.md R12). -/
def single : FloatFormat := ⟨23, 8⟩

/-- binary64, the format of double (00_scope.md R12). -/
def double : FloatFormat := ⟨52, 11⟩

/-- The weight of the sign bit. -/
def FloatFormat.signWeight (fmt : FloatFormat) : Nat := 2 ^ (fmt.fracBits + fmt.expBits)

/-- The pattern of +infinity. -/
def FloatFormat.infBits (fmt : FloatFormat) : Nat := (2 ^ fmt.expBits - 1) * 2 ^ fmt.fracBits

/-- The number 1 is 2 ^ scale units of the least denormal: 149 for single, 1074 for double. -/
def FloatFormat.scale (fmt : FloatFormat) : Nat := 2 ^ (fmt.expBits - 1) - 2 + fmt.fracBits

/-- The number 1 in units of the least denormal. -/
def FloatFormat.one (fmt : FloatFormat) : Nat := 2 ^ fmt.scale

/-- What a pattern stands for (44_convert_compare.md R300 item 1). `fin neg mag` is mag units of the least denormal,
negated where neg; zeros keep their sign. -/
inductive FloatValue where
  | nan
  | inf (neg : Bool)
  | fin (neg : Bool) (mag : Nat)
deriving DecidableEq, Repr

/-- The magnitude of a pattern without its sign bit, in units of the least denormal. -/
def FloatFormat.magnitude (fmt : FloatFormat) (bits : Nat) : Nat :=
  match bits / 2 ^ fmt.fracBits with
  | 0 => bits
  | e + 1 => (2 ^ fmt.fracBits + bits % 2 ^ fmt.fracBits) * 2 ^ e

/-- The value of a pattern (44_convert_compare.md R300 item 1). -/
def FloatFormat.unpack (fmt : FloatFormat) (b : Nat) : FloatValue :=
  let neg := b / fmt.signWeight % 2 == 1
  let bits := b % fmt.signWeight
  if bits < fmt.infBits then .fin neg (fmt.magnitude bits)
  else if bits = fmt.infBits then .inf neg
  else .nan

/-- A pattern from its sign and its other bits. -/
def FloatFormat.pack (fmt : FloatFormat) (neg : Bool) (bits : Nat) : Nat :=
  if neg then fmt.signWeight + bits else bits

/-- The pattern without sign of the float nearest to `num / den` units, ties to even; infinity where the rounded
magnitude does not fit (44_convert_compare.md R300 items 2 and 3). -/
def FloatFormat.round (fmt : FloatFormat) (num den : Nat) : Nat :=
  let sh := (num / den).log2 - fmt.fracBits
  let unit := den * 2 ^ sh
  let m := num / unit
  let r := num % unit
  let up := if unit < 2 * r then 1 else if 2 * r = unit then m % 2 else 0
  min fmt.infBits (sh * 2 ^ fmt.fracBits + m + up)

/-- The value with its sign flipped. -/
def FloatValue.neg : FloatValue → FloatValue
  | .nan => .nan
  | .inf neg => .inf (!neg)
  | .fin neg mag => .fin (!neg) mag

/-- A magnitude with its sign. -/
def signedMag (neg : Bool) (mag : Nat) : Int := if neg then -(mag : Int) else mag

/-- A sum (44_convert_compare.md R300): an exact zero sum is -0 only where both operands are -0. -/
def FloatFormat.sum (fmt : FloatFormat) : FloatValue → FloatValue → Option Nat
  | .nan, _ => none
  | _, .nan => none
  | .inf a, .inf b => if a = b then some (fmt.pack a fmt.infBits) else none
  | .inf a, .fin _ _ => some (fmt.pack a fmt.infBits)
  | .fin _ _, .inf b => some (fmt.pack b fmt.infBits)
  | .fin a x, .fin b y =>
    let v := signedMag a x + signedMag b y
    some (fmt.pack (if v = 0 then a && b else decide (v < 0)) (fmt.round v.natAbs 1))

/-- a + b (41_add_sub_mul.md R187, R188). -/
def FloatFormat.add (fmt : FloatFormat) (a b : Nat) : Option Nat := fmt.sum (fmt.unpack a) (fmt.unpack b)

/-- a - b (41_add_sub_mul.md R194, R195). -/
def FloatFormat.sub (fmt : FloatFormat) (a b : Nat) : Option Nat := fmt.sum (fmt.unpack a) (fmt.unpack b).neg

/-- A product: 0 * infinity is invalid (41_add_sub_mul.md R181). -/
def FloatFormat.product (fmt : FloatFormat) : FloatValue → FloatValue → Option Nat
  | .nan, _ => none
  | _, .nan => none
  | .inf a, .inf b => some (fmt.pack (a ^^ b) fmt.infBits)
  | .inf a, .fin b y => if y = 0 then none else some (fmt.pack (a ^^ b) fmt.infBits)
  | .fin a x, .inf b => if x = 0 then none else some (fmt.pack (a ^^ b) fmt.infBits)
  | .fin a x, .fin b y => some (fmt.pack (a ^^ b) (fmt.round (x * y) fmt.one))

/-- a * b (41_add_sub_mul.md R207, R208). -/
def FloatFormat.mul (fmt : FloatFormat) (a b : Nat) : Option Nat := fmt.product (fmt.unpack a) (fmt.unpack b)

/-- A quotient: a zero divisor gives an infinity, 0 / 0 and infinity / infinity are invalid
(42_divide_other_arith.md R237). -/
def FloatFormat.quotient (fmt : FloatFormat) : FloatValue → FloatValue → Option Nat
  | .nan, _ => none
  | _, .nan => none
  | .inf _, .inf _ => none
  | .inf a, .fin b _ => some (fmt.pack (a ^^ b) fmt.infBits)
  | .fin a _, .inf b => some (fmt.pack (a ^^ b) 0)
  | .fin a x, .fin b y =>
    if y = 0 then (if x = 0 then none else some (fmt.pack (a ^^ b) fmt.infBits))
    else some (fmt.pack (a ^^ b) (fmt.round (x * fmt.one) y))

/-- a / b (42_divide_other_arith.md R237, R238). -/
def FloatFormat.div (fmt : FloatFormat) (a b : Nat) : Option Nat := fmt.quotient (fmt.unpack a) (fmt.unpack b)

/-- The integer square root of `n` above the part `r` found so far, one bit at a time from bit `i - 1` down. -/
def isqrtBits : Nat → Nat → Nat → Nat
  | 0, _, r => r
  | i + 1, n, r => isqrtBits i n (if (r + 2 ^ i) * (r + 2 ^ i) ≤ n then r + 2 ^ i else r)

/-- The largest number whose square is at most `n`. -/
def isqrt (n : Nat) : Nat := isqrtBits (n.log2 / 2 + 1) n 0

/-- A square root (42_divide_other_arith.md R244). The root of x units is the root of n = x * one. Its leading
bits `r`, three more than the fraction holds, are rounded; where n is not the square of r * 2^k, half a unit more
stands for the rest, which no rounding can tell apart. -/
def FloatFormat.root (fmt : FloatFormat) : FloatValue → Option Nat
  | .nan => none
  | .inf neg => if neg then none else some (fmt.pack false fmt.infBits)
  | .fin neg x =>
    if x = 0 then some (fmt.pack neg 0)
    else if neg then none
    else
      let n := x * fmt.one
      let k := n.log2 / 2 - (fmt.fracBits + 3)
      let r := isqrt (n / 4 ^ k)
      some (fmt.pack false (fmt.round ((2 * r + if r * r * 4 ^ k = n then 0 else 1) * 2 ^ k) 2))

/-- sqrt(a) (42_divide_other_arith.md R244, R245). -/
def FloatFormat.sqrt (fmt : FloatFormat) (a : Nat) : Option Nat := fmt.root (fmt.unpack a)

/-- An integer converted to a format (44_convert_compare.md R308 to R311). -/
def FloatFormat.ofInt (fmt : FloatFormat) (i : Int) : Nat :=
  fmt.pack (decide (i < 0)) (fmt.round (i.natAbs * fmt.one) 1)

/-- A pattern of format `src` converted to format `fmt` (44_convert_compare.md R316, R317). -/
def FloatFormat.convert (fmt src : FloatFormat) (a : Nat) : Option Nat :=
  match src.unpack a with
  | .nan => none
  | .inf neg => some (fmt.pack neg fmt.infBits)
  | .fin neg x => some (fmt.pack neg (fmt.round (x * fmt.one) src.one))

/-- trunc(a), none for infinities and NaNs (44_convert_compare.md R301). -/
def FloatFormat.trunc (fmt : FloatFormat) (a : Nat) : Option Int :=
  match fmt.unpack a with
  | .nan => none
  | .inf _ => none
  | .fin neg x => some (signedMag neg (x / fmt.one))

/-- The order of two values, none where either is a NaN (44_convert_compare.md R320). -/
def FloatValue.order : FloatValue → FloatValue → Option Ordering
  | .nan, _ => none
  | _, .nan => none
  | .inf a, .inf b => some (if a = b then .eq else if a then .lt else .gt)
  | .inf a, .fin _ _ => some (if a then .lt else .gt)
  | .fin _ _, .inf b => some (if b then .gt else .lt)
  | .fin a x, .fin b y => some (compare (signedMag a x) (signedMag b y))

/-- The order of two patterns of a format (44_convert_compare.md R320). -/
def FloatFormat.cmp (fmt : FloatFormat) (a b : Nat) : Option Ordering := (fmt.unpack a).order (fmt.unpack b)

/-- Whether a pattern compares less than zero (42_divide_other_arith.md R239). -/
def FloatFormat.isNegative (fmt : FloatFormat) (a : Nat) : Bool := fmt.cmp a 0 == some .lt

/-- The NaN a free value names: the exponent all ones, the fraction not zero (44_convert_compare.md R300 item 5). -/
def nanLong (x : Long) : Long := x ||| 0x7f800000 ||| (if x &&& 0x007fffff = 0 then 1 else 0)

/-- The NaN a free value names: the exponent all ones, the fraction not zero (44_convert_compare.md R300 item 5). -/
def nanQuad (x : Quad) : Quad := x ||| 0x7ff0000000000000 ||| (if x &&& 0x000fffffffffffff = 0 then 1 else 0)

/-- F[k] <- a float result; a NaN result is a free NaN (93_implementation_defined.md U5; log 9). -/
def State.putF (s : State) (k : Reg) (v : Option Nat) : State :=
  match v with
  | some b => s.setF k (BitVec.ofNat 32 b)
  | none => (s.setF k (nanLong (freeLong s.freeCount))).useFree

/-- D[k] <- a double result; a NaN result is a free NaN (93_implementation_defined.md U5; log 9). -/
def State.putD (s : State) (k : Reg) (v : Option Nat) : State :=
  match v with
  | some b => s.setD k (BitVec.ofNat 64 b)
  | none => (s.setD k (nanQuad (freeQuad s.freeCount))).useFree

/-- L[k] <- a truncated value; one outside lo .. hi, or none, leaves an unspecified long
(93_implementation_defined.md U6; log 10). -/
def State.putTrunc (s : State) (k : Reg) (lo hi : Int) (v : Option Int) : State :=
  match v with
  | some t => if lo ≤ t ∧ t ≤ hi then s.setL k (BitVec.ofInt 32 t) else (s.setL k (freeLong s.freeCount)).useFree
  | none => (s.setL k (freeLong s.freeCount)).useFree

end Sys2Proof.Machine
end

