-- ==== Sys2Proof/Machine/Operands.lean ====
section
/-! DEFINITION. Operand resolution (30_encoding.md R86 to R111, R122 to R126, 40_data_movement.md R148): effective
addresses, q-operands as values and as addresses, m-operands and register groups, jump targets. -/

namespace Sys2Proof

open Sys2Proof.Machine

/-! ## Effective addresses -/

/-- The effective address of an x-byte mode, modulo 2^32 (30_encoding.md R105 to R108). -/
def XMode.ea (s : State) : XMode → Long
  | .i sc k => s.L k <<< sc.val
  | .id1 sc k d => (s.L k <<< sc.val) + d.signExtend 32
  | .id3 sc k d => (s.L k <<< sc.val) + d.signExtend 32
  | .id4 sc k d => (s.L k <<< sc.val) + d
  | .b k => s.L k
  | .bd1 k d => s.L k + d.signExtend 32
  | .bd3 k d => s.L k + d.signExtend 32
  | .bd4 k d => s.L k + d
  | .bi k sc j => s.L k + (s.L j <<< sc.val)
  | .bid2 k sc j d => s.L k + (s.L j <<< sc.val) + d.signExtend 32
  | .bid4 k sc j d => s.L k + (s.L j <<< sc.val) + d

/-! ## q-operands -/

/-- What imm_1, imm0 and imm1 denote for an operand type of `n` bits (30_encoding.md R94). -/
structure ImmTable (n : Nat) where
  minus1 : BitVec n
  zero : BitVec n
  plus1 : BitVec n

/-- The byte row of the table of 30_encoding.md R94. -/
def byteImms : ImmTable 8 := ⟨0xff, 0x00, 0x01⟩

/-- The word row of the table of 30_encoding.md R94. -/
def wordImms : ImmTable 16 := ⟨0xffff, 0x0000, 0x0001⟩

/-- The long row of the table of 30_encoding.md R94. -/
def longImms : ImmTable 32 := ⟨0xffffffff, 0x00000000, 0x00000001⟩

/-- The float row of the table of 30_encoding.md R94: -1.0, +0.0, +1.0. -/
def floatImms : ImmTable 32 := ⟨0xbf800000, 0x00000000, 0x3f800000⟩

/-- The double row of the table of 30_encoding.md R94: -1.0, +0.0, +1.0. -/
def doubleImms : ImmTable 64 := ⟨0xbff0000000000000, 0x0000000000000000, 0x3ff0000000000000⟩

/-- QKIND: what a q-operand is once resolved (30_encoding.md R100). -/
inductive QKind (n : Nat) where
  | reg (k : Reg)
  | imm (v : BitVec n)
  | mem (ea : Long)
deriving DecidableEq, Repr

/-- Resolve a q-operand in a state: QKIND, and QEA where it is `mem` (30_encoding.md R89 to R101). -/
def QOp.kind {n : Nat} (t : ImmTable n) (s : State) : QOp n → QKind n
  | .reg k => .reg k
  | .base k => .mem (s.L k)
  | .bd2 k d => .mem (s.L k + d.signExtend 32)
  | .mema a => .mem a
  | .immMinus1 => .imm t.minus1
  | .imm0 => .imm t.zero
  | .imm1 => .imm t.plus1
  | .immv v => .imm v
  | .imm2 h => .imm (h.signExtend n)
  | .x m => .mem (m.ea s)

/-- QV(T) of a resolved operand (30_encoding.md R102); `regs` reads the register class of the specifier. -/
def QKind.value {n : Nat} (regs : Reg → BitVec n) (s : State) : QKind n → Except Fault (BitVec n)
  | .reg k => .ok (regs k)
  | .imm v => .ok v
  | .mem a => (s.memRead a (n / 8)).map (BitVec.ofNat n)

/-- QW(T, v) of a resolved operand (30_encoding.md R103); `setReg` writes the register class of the specifier. An
immediate is no place to store to: the decoder refuses it (R97), and a term that holds one raises the same
fault (log 21). -/
def QKind.store {n : Nat} (setReg : Reg → BitVec n → State) (v : BitVec n) (s : State) : QKind n → Result
  | .reg k => .ok (setReg k v)
  | .imm _ => .error (.reservedEncoding s.pc)
  | .mem a => s.memWrite a (n / 8) v.toNat

/-- A byte value whose register form is the low byte of a word register, specifier `bvw` (30_encoding.md R102). -/
def QOp.byteW (q : QOp 8) (s : State) : Except Fault Byte :=
  (q.kind byteImms s).value (fun k => (s.W k).setWidth 8) s

/-- A byte value whose register form is the low byte of a long register, specifier `bvl` (30_encoding.md R102). -/
def QOp.byteL (q : QOp 8) (s : State) : Except Fault Byte :=
  (q.kind byteImms s).value (fun k => (s.L k).setWidth 8) s

/-- A word value, specifier `wv` (30_encoding.md R102). -/
def QOp.word (q : QOp 16) (s : State) : Except Fault Word := (q.kind wordImms s).value s.W s

/-- A long value, specifier `lv` (30_encoding.md R102). -/
def QOp.long (q : QOp 32) (s : State) : Except Fault Long := (q.kind longImms s).value s.L s

/-- A float value, specifier `fv` (30_encoding.md R102). -/
def QOp.float (q : QOp 32) (s : State) : Except Fault Long := (q.kind floatImms s).value s.F s

/-- A double value, specifier `dv` (30_encoding.md R102). -/
def QOp.double (q : QOp 64) (s : State) : Except Fault Quad := (q.kind doubleImms s).value s.D s

/-- A word with its low byte replaced: lob(x) <- b (00_scope.md R11). -/
def Machine.setLobW (x : Word) (b : Byte) : Word := (x &&& 0xff00) ||| b.setWidth 16

/-- A long with its low byte replaced: lob(x) <- b (00_scope.md R11). -/
def Machine.setLobL (x : Long) (b : Byte) : Long := (x &&& 0xffffff00) ||| b.setWidth 32

/-- A long with its low word replaced: low(x) <- v (00_scope.md R11). -/
def Machine.setLow (x : Long) (v : Word) : Long := (x &&& 0xffff0000) ||| v.setWidth 32

/-- Store a byte, specifier `baw`; a word register keeps its high byte (30_encoding.md R103). -/
def QOp.storeByteW (q : QOp 8) (v : Byte) (s : State) : Result :=
  (q.kind byteImms s).store (fun k b => s.setW k (setLobW (s.W k) b)) v s

/-- Store a byte, specifier `bal`; a long register keeps its three high bytes (30_encoding.md R103). -/
def QOp.storeByteL (q : QOp 8) (v : Byte) (s : State) : Result :=
  (q.kind byteImms s).store (fun k b => s.setL k (setLobL (s.L k) b)) v s

/-- Store a word, specifier `wa` (30_encoding.md R103). -/
def QOp.storeWord (q : QOp 16) (v : Word) (s : State) : Result := (q.kind wordImms s).store s.setW v s

/-- Store a long, specifier `la` (30_encoding.md R103). -/
def QOp.storeLong (q : QOp 32) (v : Long) (s : State) : Result := (q.kind longImms s).store s.setL v s

/-- Store a float, specifier `fa` (30_encoding.md R103). -/
def QOp.storeFloat (q : QOp 32) (v : Long) (s : State) : Result := (q.kind floatImms s).store s.setF v s

/-- Store a double, specifier `da` (30_encoding.md R103). -/
def QOp.storeDouble (q : QOp 64) (v : Quad) (s : State) : Result := (q.kind doubleImms s).store s.setD v s

/-! ## m-operands and register groups -/

/-- The `j`-th register of the group that starts at `g` (40_data_movement.md R148). -/
def GReg.nth (g : GReg) (j : Nat) : GReg := ⟨g.file, Fin.ofNat 8 (g.idx.val + j)⟩

/-- The number in `c` successive registers from the `j`-th of the group on, the first least significant
(40_data_movement.md R148). -/
def GReg.groupValue (g : GReg) (s : State) : Nat → Nat → Nat
  | _, 0 => 0
  | j, c + 1 => s.G (g.nth j) + 2 ^ (8 * g.file.size) * GReg.groupValue g s (j + 1) c

/-- Successive register-sized pieces of `v` into `c` registers from the `j`-th of the group on, the least
significant first (40_data_movement.md R148). -/
def GReg.setGroup (g : GReg) : Nat → Nat → Nat → State → State
  | _, 0, _, s => s
  | j, c + 1, v, s => GReg.setGroup g (j + 1) c (v / 2 ^ (8 * g.file.size)) (s.setG (g.nth j) v)

/-- GroupRead(g, n) (40_data_movement.md R148). -/
def GReg.groupRead (g : GReg) (n : SizeCode) (s : State) : Except Fault Nat :=
  if g.groupFits n then
    if n.bytes ≤ g.file.size then .ok (s.G g % 2 ^ (8 * n.bytes))
    else .ok (g.groupValue s 0 (n.bytes / g.file.size))
  else .error (.reservedEncoding s.pc)

/-- GroupWrite(g, n, v) (40_data_movement.md R148): a count below the register's size replaces only its low
bytes. -/
def GReg.groupWrite (g : GReg) (n : SizeCode) (v : Nat) (s : State) : Result :=
  if g.groupFits n then
    if n.bytes ≤ g.file.size then
      .ok (s.setG g (s.G g / 2 ^ (8 * n.bytes) * 2 ^ (8 * n.bytes) + v % 2 ^ (8 * n.bytes)))
    else .ok (g.setGroup 0 (n.bytes / g.file.size) v s)
  else .error (.reservedEncoding s.pc)

/-- The m-operand read as a value of `n` bytes (40_data_movement.md R149). -/
def MOp.read (m : MOp) (n : SizeCode) (s : State) : Except Fault Nat :=
  match m with
  | .mmema a => s.memRead a n.bytes
  | .mreg g => g.groupRead n s
  | .x xm => s.memRead (xm.ea s) n.bytes

/-- A value of `n` bytes stored to the m-operand (40_data_movement.md R157). -/
def MOp.write (m : MOp) (n : SizeCode) (v : Nat) (s : State) : Result :=
  match m with
  | .mmema a => s.memWrite a n.bytes v
  | .mreg g => g.groupWrite n v s
  | .x xm => s.memWrite (xm.ea s) n.bytes v

/-! ## Jump targets -/

/-- JT: the target a j-operand denotes, with `npc` the address of the next instruction (30_encoding.md R123 to
R126). jmemai and sprmi read 4 bytes. -/
def JOp.target (j : JOp) (npc : Long) (s : State) : Except Fault Long :=
  match j with
  | .jregi k => .ok (s.L k)
  | .pcrp off => .ok (npc + 2 * off.setWidth 32)
  | .pcrm off => .ok (npc - 2 * off.setWidth 32)
  | .jmema a => .ok a
  | .jmemai a => (s.memRead a 4).map (BitVec.ofNat 32)
  | .sprmi off => (s.memRead (s.sp - 2 * off.setWidth 32) 4).map (BitVec.ofNat 32)

end Sys2Proof
end

