-- ==== Sys2Proof/Machine/AddSubMul.lean ====
section
/-! DEFINITION. The add, subtract, negate and multiply instructions (41_add_sub_mul.md). -/

namespace Sys2Proof.Machine

/-- addw: W[r] <- W[r] + QV(word), modulo 2^16 (41_add_sub_mul.md R182). -/
def execAddw (q : QOp 16) (r : Reg) (s : State) : Out :=
  complete s (2 + q.extraBytes) do
    let v ← q.word s
    return s.setW r (s.W r + v)

/-- addl: L[r] <- L[r] + QV(long), modulo 2^32 (41_add_sub_mul.md R183). -/
def execAddl (q : QOp 32) (r : Reg) (s : State) : Out :=
  complete s (2 + q.extraBytes) do
    let v ← q.long s
    return s.setL r (s.L r + v)

/-- addcl: no carry bit is defined, so it raises NotAvailable, its operand not read (41_add_sub_mul.md R184). -/
def execAddcl (_q : QOp 32) (_r : Reg) (s : State) : Out := finish s (.error (.notAvailable s.pc))

/-- adduwl: L[r] <- L[r] + zext(QV(word)), modulo 2^32 (41_add_sub_mul.md R185). -/
def execAdduwl (q : QOp 16) (r : Reg) (s : State) : Out :=
  complete s (2 + q.extraBytes) do
    let v ← q.word s
    return s.setL r (s.L r + v.setWidth 32)

/-- addswl: L[r] <- L[r] + sext(QV(word)), modulo 2^32 (41_add_sub_mul.md R186). -/
def execAddswl (q : QOp 16) (r : Reg) (s : State) : Out :=
  complete s (2 + q.extraBytes) do
    let v ← q.word s
    return s.setL r (s.L r + v.signExtend 32)

/-- addf: F[r] <- F[r] + QV(float), rounded once (41_add_sub_mul.md R187). -/
def execAddf (q : QOp 32) (r : Reg) (s : State) : Out :=
  complete s (2 + q.extraBytes) do
    let v ← q.float s
    return s.putF r (single.add (s.F r).toNat v.toNat)

/-- addd: D[r] <- D[r] + QV(double), rounded once (41_add_sub_mul.md R188). -/
def execAddd (q : QOp 64) (r : Reg) (s : State) : Out :=
  complete s (2 + q.extraBytes) do
    let v ← q.double s
    return s.putD r (double.add (s.D r).toNat v.toNat)

/-- subw: W[r] <- W[r] - QV(word), modulo 2^16 (41_add_sub_mul.md R189). -/
def execSubw (q : QOp 16) (r : Reg) (s : State) : Out :=
  complete s (2 + q.extraBytes) do
    let v ← q.word s
    return s.setW r (s.W r - v)

/-- subl: L[r] <- L[r] - QV(long), modulo 2^32 (41_add_sub_mul.md R190). -/
def execSubl (q : QOp 32) (r : Reg) (s : State) : Out :=
  complete s (2 + q.extraBytes) do
    let v ← q.long s
    return s.setL r (s.L r - v)

/-- subcl: no carry bit is defined, so it raises NotAvailable, its operand not read (41_add_sub_mul.md R191). -/
def execSubcl (_q : QOp 32) (_r : Reg) (s : State) : Out := finish s (.error (.notAvailable s.pc))

/-- subuwl: L[r] <- L[r] - zext(QV(word)), modulo 2^32 (41_add_sub_mul.md R192). -/
def execSubuwl (q : QOp 16) (r : Reg) (s : State) : Out :=
  complete s (2 + q.extraBytes) do
    let v ← q.word s
    return s.setL r (s.L r - v.setWidth 32)

/-- subswl: L[r] <- L[r] - sext(QV(word)), modulo 2^32 (41_add_sub_mul.md R193). -/
def execSubswl (q : QOp 16) (r : Reg) (s : State) : Out :=
  complete s (2 + q.extraBytes) do
    let v ← q.word s
    return s.setL r (s.L r - v.signExtend 32)

/-- subf: F[r] <- F[r] - QV(float), rounded once (41_add_sub_mul.md R194). -/
def execSubf (q : QOp 32) (r : Reg) (s : State) : Out :=
  complete s (2 + q.extraBytes) do
    let v ← q.float s
    return s.putF r (single.sub (s.F r).toNat v.toNat)

/-- subd: D[r] <- D[r] - QV(double), rounded once (41_add_sub_mul.md R195). -/
def execSubd (q : QOp 64) (r : Reg) (s : State) : Out :=
  complete s (2 + q.extraBytes) do
    let v ← q.double s
    return s.putD r (double.sub (s.D r).toNat v.toNat)

/-- negw: W[r] <- 0 - QV(word), modulo 2^16 (41_add_sub_mul.md R196). -/
def execNegw (q : QOp 16) (r : Reg) (s : State) : Out :=
  complete s (2 + q.extraBytes) do
    let v ← q.word s
    return s.setW r (0 - v)

/-- negl: L[r] <- 0 - QV(long), modulo 2^32 (41_add_sub_mul.md R197). -/
def execNegl (q : QOp 32) (r : Reg) (s : State) : Out :=
  complete s (2 + q.extraBytes) do
    let v ← q.long s
    return s.setL r (0 - v)

/-- negf: F[r] <- QV(float) with its sign bit inverted (41_add_sub_mul.md R198). -/
def execNegf (q : QOp 32) (r : Reg) (s : State) : Out :=
  complete s (2 + q.extraBytes) do
    let v ← q.float s
    return s.setF r (v ^^^ 0x80000000)

/-- negd: D[r] <- QV(double) with its sign bit inverted (41_add_sub_mul.md R199). -/
def execNegd (q : QOp 64) (r : Reg) (s : State) : Out :=
  complete s (2 + q.extraBytes) do
    let v ← q.double s
    return s.setD r (v ^^^ 0x8000000000000000)

/-- muluw: W[r] <- the low 16 bits of the unsigned product W[r] * QV(word) (41_add_sub_mul.md R201). -/
def execMuluw (q : QOp 16) (r : Reg) (s : State) : Out :=
  complete s (2 + q.extraBytes) do
    let v ← q.word s
    return s.setW r (BitVec.ofNat 16 ((s.W r).toNat * v.toNat))

/-- mulsw: W[r] <- the low 16 bits of the signed product W[r] * QV(word) (41_add_sub_mul.md R202). -/
def execMulsw (q : QOp 16) (r : Reg) (s : State) : Out :=
  complete s (2 + q.extraBytes) do
    let v ← q.word s
    return s.setW r (BitVec.ofInt 16 ((s.W r).toInt * v.toInt))

/-- mulul: L[r] <- the low 32 bits of the unsigned product L[r] * QV(long) (41_add_sub_mul.md R203). -/
def execMulul (q : QOp 32) (r : Reg) (s : State) : Out :=
  complete s (2 + q.extraBytes) do
    let v ← q.long s
    return s.setL r (BitVec.ofNat 32 ((s.L r).toNat * v.toNat))

/-- mulsl: L[r] <- the low 32 bits of the signed product L[r] * QV(long) (41_add_sub_mul.md R204). -/
def execMulsl (q : QOp 32) (r : Reg) (s : State) : Out :=
  complete s (2 + q.extraBytes) do
    let v ← q.long s
    return s.setL r (BitVec.ofInt 32 ((s.L r).toInt * v.toInt))

/-- muluwl: L[r] <- the unsigned product low(L[r]) * QV(word), whole (41_add_sub_mul.md R205). -/
def execMuluwl (q : QOp 16) (r : Reg) (s : State) : Out :=
  complete s (2 + q.extraBytes) do
    let v ← q.word s
    return s.setL r (BitVec.ofNat 32 (((s.L r).setWidth 16).toNat * v.toNat))

/-- mulswl: L[r] <- the signed product low(L[r]) * QV(word), whole (41_add_sub_mul.md R206). -/
def execMulswl (q : QOp 16) (r : Reg) (s : State) : Out :=
  complete s (2 + q.extraBytes) do
    let v ← q.word s
    return s.setL r (BitVec.ofInt 32 (((s.L r).setWidth 16).toInt * v.toInt))

/-- mulf: F[r] <- F[r] * QV(float), rounded once (41_add_sub_mul.md R207). -/
def execMulf (q : QOp 32) (r : Reg) (s : State) : Out :=
  complete s (2 + q.extraBytes) do
    let v ← q.float s
    return s.putF r (single.mul (s.F r).toNat v.toNat)

/-- muld: D[r] <- D[r] * QV(double), rounded once (41_add_sub_mul.md R208). -/
def execMuld (q : QOp 64) (r : Reg) (s : State) : Out :=
  complete s (2 + q.extraBytes) do
    let v ← q.double s
    return s.putD r (double.mul (s.D r).toNat v.toNat)

end Sys2Proof.Machine
end

