-- ==== Sys2Proof/Machine/Flags.lean ====
section
/-! DEFINITION. Every flag computation: the fixed-point and floating compares (44_convert_compare.md R320), the
eleven conditions (30_encoding.md R121), and movflags' mask (40_data_movement.md R160). The bits of flags are LUF
16, LF 8, EF 4, GF 2, GUF 1 (10_state.md R30). -/

namespace Sys2Proof.Machine

/-- LUF, less than unsigned (10_state.md R30). -/
def luf (flags : Word) : Bool := flags[4]

/-- LF, less than signed (10_state.md R30). -/
def lf (flags : Word) : Bool := flags[3]

/-- EF, equal (10_state.md R30). -/
def ef (flags : Word) : Bool := flags[2]

/-- GF, greater than signed (10_state.md R30). -/
def gf (flags : Word) : Bool := flags[1]

/-- GUF, greater than unsigned (10_state.md R30). -/
def guf (flags : Word) : Bool := flags[0]

/-- cond(c), evaluated on the flags (30_encoding.md R121). -/
def condHolds (flags : Word) : Cond → Bool
  | .unc => true
  | .leu => luf flags || ef flags
  | .lu => luf flags
  | .l => lf flags
  | .le => lf flags || ef flags
  | .e => ef flags
  | .ne => !ef flags
  | .ge => gf flags || ef flags
  | .g => gf flags
  | .gu => guf flags
  | .geu => guf flags || ef flags

/-- icmp(a, b): EF alone where equal, else one unsigned and one signed flag (44_convert_compare.md R320). -/
def icmp {n : Nat} (a b : BitVec n) : Word :=
  if a = b then 4 else (if a.ult b then 16 else 1) + (if a.slt b then 8 else 2)

/-- The flags of a floating compare: exactly one of LF, EF, GF (44_convert_compare.md R320). -/
def orderingFlags : Ordering → Word
  | .lt => 8
  | .eq => 4
  | .gt => 2

/-- flags <- fcmp(a, b). Where an operand is a NaN there is no order, and the spec leaves open which of the three
patterns is written (93_implementation_defined.md U16): a free value (log 11). -/
def State.setOrdering (s : State) (o : Option Ordering) : State :=
  match o with
  | some x => s.setFlags (orderingFlags x)
  | none => (s.setFlags (orderingFlags (freeOrdering s.freeCount))).useFree

/-- The five bits of a word that flags can hold (40_data_movement.md R160). -/
def flagBits (v : Word) : Word := v &&& 0x001f

end Sys2Proof.Machine
end

