-- ==== Sys2Proof/Machine/Stack.lean ====
section
/-! DEFINITION. The stack operations that several instructions share: pushing and popping a set of registers, entering
and leaving a function (45_control_stack_misc.md R348 to R350, R360 to R363). -/

namespace Sys2Proof.Machine

/-- The registers with the numbers of a list, each pushed where its bit of the mask is on: exactly a push of that
register as it stands when its turn comes (45_control_stack_misc.md R360). -/
def pushEach (bmsk : Long) : List Nat → State → Result
  | [], s => .ok s
  | n :: ns, s =>
    if bmsk.getLsbD n then do
      let t ← s.push (GReg.ofNumber n).file.size (s.G (GReg.ofNumber n))
      pushEach bmsk ns t
    else pushEach bmsk ns s

/-- The registers of a mask pushed, bit 0 first (45_control_stack_misc.md R360). -/
def State.pushMask (s : State) (bmsk : Long) : Result := pushEach bmsk (List.range 32) s

/-- A register popped: written first, sp incremented afterwards (45_control_stack_misc.md R351, R361). -/
def State.popReg (s : State) (g : GReg) : Result := do
  let v ← s.top g.file.size
  return (s.setG g v).drop g.file.size

/-- The registers with the numbers of a list, each popped where its bit of the mask is on (45_control_stack_misc.md
R361). -/
def popEach (bmsk : Long) : List Nat → State → Result
  | [], s => .ok s
  | n :: ns, s =>
    if bmsk.getLsbD n then do
      let t ← s.popReg (GReg.ofNumber n)
      popEach bmsk ns t
    else popEach bmsk ns s

/-- The registers of a mask popped, bit 31 first (45_control_stack_misc.md R361). -/
def State.popMask (s : State) (bmsk : Long) : Result := popEach bmsk (List.range 32).reverse s

/-- The byte count an stkc field stands for, 0 to 510 (45_control_stack_misc.md R341). -/
def stackBytes (stkc : Byte) : Long := BitVec.ofNat 32 (2 * stkc.toNat)

/-- The actions of enter: fp pushed, fp <- the address it is at, sp below it by the locals
(45_control_stack_misc.md R362). -/
def State.enterFrame (s : State) (stkc : Byte) : Result := do
  let t ← s.memWrite (s.sp - 4) 4 s.fp.toNat
  return (t.setFp (s.sp - 4)).setSp (s.sp - 4 - stackBytes stkc)

/-- The actions of ret: pc <- the long at sp, sp above it and the parameters (45_control_stack_misc.md R348). -/
def State.returnFrame (s : State) (stkc : Byte) : Result := do
  let p ← s.top 4
  return (s.setSp (s.sp + 4 + stackBytes stkc)).setPc (BitVec.ofNat 32 p)

/-- The actions of leave: the saved fp and the return address read through fp, sp above them and the parameters
(45_control_stack_misc.md R349). -/
def State.leaveFrame (s : State) (stkc : Byte) : Result := do
  let f ← s.memRead s.fp 4
  let p ← s.memRead (s.fp + 4) 4
  return ((s.setFp (BitVec.ofNat 32 f)).setSp (s.fp + 8 + stackBytes stkc)).setPc (BitVec.ofNat 32 p)

/-- The actions of a taken call: the target is found first, the address of the next instruction is pushed, pc <- the
target (45_control_stack_misc.md R345 to R347). -/
def State.callTo (s : State) (npc target : Long) : Result := do
  let t ← s.push 4 npc.toNat
  return t.setPc target

end Sys2Proof.Machine
end

