-- ==== Sys2Proof/Machine/ControlStack.lean ====
section
/-! DEFINITION. The jump, call, return, push, pop, function entry and miscellaneous instructions
(45_control_stack_misc.md). -/

namespace Sys2Proof.Machine

/-- jump: where the condition holds pc <- JT, else pc <- npc and no target is resolved (45_control_stack_misc.md
R342). -/
def execJump (c : Cond) (j : JOp) (s : State) : Out :=
  finish s <|
    if condHolds s.flags c then do
      let t ← j.target (s.npc (2 + j.extraBytes)) s
      return s.setPc t
    else .ok (s.setPc (s.npc (2 + j.extraBytes)))

/-- jumpf: pc <- npc + 2 * ma3 (45_control_stack_misc.md R343). -/
def execJumpf (off : BitVec 24) (s : State) : Out :=
  finish s (.ok (s.setPc (s.npc 4 + 2 * off.setWidth 32)))

/-- jumpb: pc <- npc - 2 * ma3 (45_control_stack_misc.md R344). -/
def execJumpb (off : BitVec 24) (s : State) : Out :=
  finish s (.ok (s.setPc (s.npc 4 - 2 * off.setWidth 32)))

/-- call: where the condition holds npc is pushed and pc <- JT, found before sp changes; else pc <- npc
(45_control_stack_misc.md R345). -/
def execCall (c : Cond) (j : JOp) (s : State) : Out :=
  finish s <|
    if condHolds s.flags c then do
      let t ← j.target (s.npc (2 + j.extraBytes)) s
      s.callTo (s.npc (2 + j.extraBytes)) t
    else .ok (s.setPc (s.npc (2 + j.extraBytes)))

/-- callf: npc is pushed and pc <- npc + 2 * ma3 (45_control_stack_misc.md R346). -/
def execCallf (off : BitVec 24) (s : State) : Out :=
  finish s (s.callTo (s.npc 4) (s.npc 4 + 2 * off.setWidth 32))

/-- callb: npc is pushed and pc <- npc - 2 * ma3 (45_control_stack_misc.md R347). -/
def execCallb (off : BitVec 24) (s : State) : Out :=
  finish s (s.callTo (s.npc 4) (s.npc 4 - 2 * off.setWidth 32))

/-- ret: pc is popped, then sp <- sp + 2 * stkc (45_control_stack_misc.md R348). -/
def execRet (stkc : Byte) (s : State) : Out := finish s (s.returnFrame stkc)

/-- leave: movl fp sp, popl fp, ret stkc (45_control_stack_misc.md R349). -/
def execLeave (stkc : Byte) (s : State) : Out := finish s (s.leaveFrame stkc)

/-- leaveres: popregs bmsk, then leave stkc with the fp that results (45_control_stack_misc.md R350). -/
def execLeaveres (stkc : Byte) (bmsk : Long) (s : State) : Out :=
  finish s do
    let t ← s.popMask bmsk
    t.leaveFrame stkc

/-- pushw: the value is read, then pushed (45_control_stack_misc.md R352). -/
def execPushw (q : QOp 16) (s : State) : Out :=
  complete s (2 + q.extraBytes) do
    let v ← q.word s
    s.push 2 v.toNat

/-- pushl: the value is read, then pushed (45_control_stack_misc.md R353). -/
def execPushl (q : QOp 32) (s : State) : Out :=
  complete s (2 + q.extraBytes) do
    let v ← q.long s
    s.push 4 v.toNat

/-- pushf: the value is read, then pushed, its pattern unchanged (45_control_stack_misc.md R354). -/
def execPushf (q : QOp 32) (s : State) : Out :=
  complete s (2 + q.extraBytes) do
    let v ← q.float s
    s.push 4 v.toNat

/-- pushd: the value is read, then pushed, its pattern unchanged (45_control_stack_misc.md R355). -/
def execPushd (q : QOp 64) (s : State) : Out :=
  complete s (2 + q.extraBytes) do
    let v ← q.double s
    s.push 8 v.toNat

/-- popw: the top is read, the destination written, then sp incremented (45_control_stack_misc.md R356). -/
def execPopw (q : QOp 16) (s : State) : Out :=
  complete s (2 + q.extraBytes) do
    let v ← s.top 2
    let t ← q.storeWord (BitVec.ofNat 16 v) s
    return t.drop 2

/-- popl: the top is read, the destination written, then sp incremented (45_control_stack_misc.md R357). -/
def execPopl (q : QOp 32) (s : State) : Out :=
  complete s (2 + q.extraBytes) do
    let v ← s.top 4
    let t ← q.storeLong (BitVec.ofNat 32 v) s
    return t.drop 4

/-- popf: the top is read, the destination written, then sp incremented (45_control_stack_misc.md R358). -/
def execPopf (q : QOp 32) (s : State) : Out :=
  complete s (2 + q.extraBytes) do
    let v ← s.top 4
    let t ← q.storeFloat (BitVec.ofNat 32 v) s
    return t.drop 4

/-- popd: the top is read, the destination written, then sp incremented (45_control_stack_misc.md R359). -/
def execPopd (q : QOp 64) (s : State) : Out :=
  complete s (2 + q.extraBytes) do
    let v ← s.top 8
    let t ← q.storeDouble (BitVec.ofNat 64 v) s
    return t.drop 8

/-- pushregs: the registers of the mask are pushed, bit 0 first (45_control_stack_misc.md R360). -/
def execPushregs (bmsk : Long) (s : State) : Out := complete s 6 (s.pushMask bmsk)

/-- popregs: the registers of the mask are popped, bit 31 first (45_control_stack_misc.md R361). -/
def execPopregs (bmsk : Long) (s : State) : Out := complete s 6 (s.popMask bmsk)

/-- enter: pushl fp, movl sp fp, subl 2*stkc sp (45_control_stack_misc.md R362). -/
def execEnter (stkc : Byte) (s : State) : Out := complete s 2 (s.enterFrame stkc)

/-- entersav: enter stkc, then pushregs bmsk (45_control_stack_misc.md R363). -/
def execEntersav (stkc : Byte) (bmsk : Long) (s : State) : Out :=
  complete s 6 do
    let t ← s.enterFrame stkc
    t.pushMask bmsk

/-- halt: status <- Halted, pc <- npc (45_control_stack_misc.md R364). -/
def execHalt (s : State) : Out := complete s 2 (.ok (s.setStatus .halted))

/-- nop: pc <- npc (45_control_stack_misc.md R365). -/
def execNop (s : State) : Out := complete s 2 (.ok s)

end Sys2Proof.Machine
end

