-- ==== Sys2Proof/Machine/ConvertCompare.lean ====
section
/-! DEFINITION. The convert and compare instructions (44_convert_compare.md). -/

namespace Sys2Proof.Machine

/-- cvtbzw: W[r] <- zext(QV(byte)) (44_convert_compare.md R302). -/
def execCvtbzw (q : QOp 8) (r : Reg) (s : State) : Out :=
  complete s (2 + q.extraBytes) do
    let v ← q.byteW s
    return s.setW r (v.setWidth 16)

/-- cvtbsw: W[r] <- sext(QV(byte)) (44_convert_compare.md R303). -/
def execCvtbsw (q : QOp 8) (r : Reg) (s : State) : Out :=
  complete s (2 + q.extraBytes) do
    let v ← q.byteW s
    return s.setW r (v.signExtend 16)

/-- cvtbzl: L[r] <- zext(QV(byte)) (44_convert_compare.md R304). -/
def execCvtbzl (q : QOp 8) (r : Reg) (s : State) : Out :=
  complete s (2 + q.extraBytes) do
    let v ← q.byteL s
    return s.setL r (v.setWidth 32)

/-- cvtbsl: L[r] <- sext(QV(byte)) (44_convert_compare.md R305). -/
def execCvtbsl (q : QOp 8) (r : Reg) (s : State) : Out :=
  complete s (2 + q.extraBytes) do
    let v ← q.byteL s
    return s.setL r (v.signExtend 32)

/-- cvtwzl: L[r] <- zext(QV(word)) (44_convert_compare.md R306). -/
def execCvtwzl (q : QOp 16) (r : Reg) (s : State) : Out :=
  complete s (2 + q.extraBytes) do
    let v ← q.word s
    return s.setL r (v.setWidth 32)

/-- cvtwsl: L[r] <- sext(QV(word)) (44_convert_compare.md R307). -/
def execCvtwsl (q : QOp 16) (r : Reg) (s : State) : Out :=
  complete s (2 + q.extraBytes) do
    let v ← q.word s
    return s.setL r (v.signExtend 32)

/-- cvtulf: F[r] <- the unsigned QV(long), rounded once (44_convert_compare.md R308). -/
def execCvtulf (q : QOp 32) (r : Reg) (s : State) : Out :=
  complete s (2 + q.extraBytes) do
    let v ← q.long s
    return s.setF r (BitVec.ofNat 32 (single.ofInt v.toNat))

/-- cvtslf: F[r] <- the signed QV(long), rounded once (44_convert_compare.md R309). -/
def execCvtslf (q : QOp 32) (r : Reg) (s : State) : Out :=
  complete s (2 + q.extraBytes) do
    let v ← q.long s
    return s.setF r (BitVec.ofNat 32 (single.ofInt v.toInt))

/-- cvtuld: D[r] <- the unsigned QV(long), exact (44_convert_compare.md R310). -/
def execCvtuld (q : QOp 32) (r : Reg) (s : State) : Out :=
  complete s (2 + q.extraBytes) do
    let v ← q.long s
    return s.setD r (BitVec.ofNat 64 (double.ofInt v.toNat))

/-- cvtsld: D[r] <- the signed QV(long), exact (44_convert_compare.md R311). -/
def execCvtsld (q : QOp 32) (r : Reg) (s : State) : Out :=
  complete s (2 + q.extraBytes) do
    let v ← q.long s
    return s.setD r (BitVec.ofNat 64 (double.ofInt v.toInt))

/-- cvttful: L[r] <- trunc(QV(float)) where 0 .. 2^32 - 1 holds it, else unspecified (44_convert_compare.md R312).
-/
def execCvttful (q : QOp 32) (r : Reg) (s : State) : Out :=
  complete s (2 + q.extraBytes) do
    let v ← q.float s
    return s.putTrunc r 0 4294967295 (single.trunc v.toNat)

/-- cvttfsl: L[r] <- trunc(QV(float)) where -2^31 .. 2^31 - 1 holds it, else unspecified (44_convert_compare.md
R313). -/
def execCvttfsl (q : QOp 32) (r : Reg) (s : State) : Out :=
  complete s (2 + q.extraBytes) do
    let v ← q.float s
    return s.putTrunc r (-2147483648) 2147483647 (single.trunc v.toNat)

/-- cvttdul: L[r] <- trunc(QV(double)) where 0 .. 2^32 - 1 holds it, else unspecified (44_convert_compare.md R314).
-/
def execCvttdul (q : QOp 64) (r : Reg) (s : State) : Out :=
  complete s (2 + q.extraBytes) do
    let v ← q.double s
    return s.putTrunc r 0 4294967295 (double.trunc v.toNat)

/-- cvttdsl: L[r] <- trunc(QV(double)) where -2^31 .. 2^31 - 1 holds it, else unspecified (44_convert_compare.md
R315). -/
def execCvttdsl (q : QOp 64) (r : Reg) (s : State) : Out :=
  complete s (2 + q.extraBytes) do
    let v ← q.double s
    return s.putTrunc r (-2147483648) 2147483647 (double.trunc v.toNat)

/-- cvtdf: F[r] <- the value of QV(double), rounded once (44_convert_compare.md R316). -/
def execCvtdf (q : QOp 64) (r : Reg) (s : State) : Out :=
  complete s (2 + q.extraBytes) do
    let v ← q.double s
    return s.putF r (single.convert double v.toNat)

/-- cvtfd: D[r] <- the value of QV(float), exact (44_convert_compare.md R317). -/
def execCvtfd (q : QOp 32) (r : Reg) (s : State) : Out :=
  complete s (2 + q.extraBytes) do
    let v ← q.float s
    return s.putD r (double.convert single v.toNat)

/-- cmpw: flags <- icmp_16(W[r], QV(word)) (44_convert_compare.md R321). -/
def execCmpw (q : QOp 16) (r : Reg) (s : State) : Out :=
  complete s (2 + q.extraBytes) do
    let v ← q.word s
    return s.setFlags (icmp (s.W r) v)

/-- cmpl: flags <- icmp_32(L[r], QV(long)) (44_convert_compare.md R322). -/
def execCmpl (q : QOp 32) (r : Reg) (s : State) : Out :=
  complete s (2 + q.extraBytes) do
    let v ← q.long s
    return s.setFlags (icmp (s.L r) v)

/-- cmpwb: flags <- icmp_8(lob(W[r]), QV(byte)) (44_convert_compare.md R323). -/
def execCmpwb (q : QOp 8) (r : Reg) (s : State) : Out :=
  complete s (2 + q.extraBytes) do
    let v ← q.byteW s
    return s.setFlags (icmp ((s.W r).setWidth 8) v)

/-- cmplb: flags <- icmp_8(lob(L[r]), QV(byte)) (44_convert_compare.md R324). -/
def execCmplb (q : QOp 8) (r : Reg) (s : State) : Out :=
  complete s (2 + q.extraBytes) do
    let v ← q.byteL s
    return s.setFlags (icmp ((s.L r).setWidth 8) v)

/-- cmpf: flags <- fcmp(F[r], QV(float)) (44_convert_compare.md R325). -/
def execCmpf (q : QOp 32) (r : Reg) (s : State) : Out :=
  complete s (2 + q.extraBytes) do
    let v ← q.float s
    return s.setOrdering (single.cmp (s.F r).toNat v.toNat)

/-- cmpd: flags <- fcmp(D[r], QV(double)) (44_convert_compare.md R326). -/
def execCmpd (q : QOp 64) (r : Reg) (s : State) : Out :=
  complete s (2 + q.extraBytes) do
    let v ← q.double s
    return s.setOrdering (double.cmp (s.D r).toNat v.toNat)

end Sys2Proof.Machine
end

