-- ==== Sys2Proof/Machine/DataMovement.lean ====
section
/-! DEFINITION. The move, store, load-address and flags instructions (40_data_movement.md). -/

namespace Sys2Proof.Machine

/-- movw: W[r] <- QV(word) (40_data_movement.md R141). -/
def execMovw (q : QOp 16) (r : Reg) (s : State) : Out :=
  complete s (2 + q.extraBytes) do
    let v ← q.word s
    return s.setW r v

/-- movl: L[r] <- QV(long) (40_data_movement.md R142). -/
def execMovl (q : QOp 32) (r : Reg) (s : State) : Out :=
  complete s (2 + q.extraBytes) do
    let v ← q.long s
    return s.setL r v

/-- movf: F[r] <- QV(float), the pattern unchanged (40_data_movement.md R143). -/
def execMovf (q : QOp 32) (r : Reg) (s : State) : Out :=
  complete s (2 + q.extraBytes) do
    let v ← q.float s
    return s.setF r v

/-- movd: D[r] <- QV(double), the pattern unchanged (40_data_movement.md R144). -/
def execMovd (q : QOp 64) (r : Reg) (s : State) : Out :=
  complete s (2 + q.extraBytes) do
    let v ← q.double s
    return s.setD r v

/-- movbw: lob(W[r]) <- QV(byte), the high byte kept (40_data_movement.md R145). -/
def execMovbw (q : QOp 8) (r : Reg) (s : State) : Out :=
  complete s (2 + q.extraBytes) do
    let v ← q.byteW s
    return s.setW r (setLobW (s.W r) v)

/-- movbl: lob(L[r]) <- QV(byte), the three high bytes kept (40_data_movement.md R146). -/
def execMovbl (q : QOp 8) (r : Reg) (s : State) : Out :=
  complete s (2 + q.extraBytes) do
    let v ← q.byteL s
    return s.setL r (setLobL (s.L r) v)

/-- movwl: low(L[r]) <- QV(word), the high word kept (40_data_movement.md R147). -/
def execMovwl (q : QOp 16) (r : Reg) (s : State) : Out :=
  complete s (2 + q.extraBytes) do
    let v ← q.word s
    return s.setL r (setLow (s.L r) v)

/-- gmov: the m-operand is read whole, then written to the register group of r (40_data_movement.md R149). -/
def execGmov (n : SizeCode) (r : GReg) (m : MOp) (s : State) : Out :=
  complete s (2 + m.extraBytes) do
    let v ← m.read n s
    r.groupWrite n v s

/-- stow: QW(word, W[r]) (40_data_movement.md R150). -/
def execStow (q : QOp 16) (r : Reg) (s : State) : Out :=
  complete s (2 + q.extraBytes) (q.storeWord (s.W r) s)

/-- stol: QW(long, L[r]) (40_data_movement.md R151). -/
def execStol (q : QOp 32) (r : Reg) (s : State) : Out :=
  complete s (2 + q.extraBytes) (q.storeLong (s.L r) s)

/-- stof: QW(float, F[r]), the pattern unchanged (40_data_movement.md R152). -/
def execStof (q : QOp 32) (r : Reg) (s : State) : Out :=
  complete s (2 + q.extraBytes) (q.storeFloat (s.F r) s)

/-- stod: QW(double, D[r]), the pattern unchanged (40_data_movement.md R153). -/
def execStod (q : QOp 64) (r : Reg) (s : State) : Out :=
  complete s (2 + q.extraBytes) (q.storeDouble (s.D r) s)

/-- stowb: QW(byte, lob(W[r])) (40_data_movement.md R154). -/
def execStowb (q : QOp 8) (r : Reg) (s : State) : Out :=
  complete s (2 + q.extraBytes) (q.storeByteW ((s.W r).setWidth 8) s)

/-- stolb: QW(byte, lob(L[r])) (40_data_movement.md R155). -/
def execStolb (q : QOp 8) (r : Reg) (s : State) : Out :=
  complete s (2 + q.extraBytes) (q.storeByteL ((s.L r).setWidth 8) s)

/-- stolw: QW(word, low(L[r])) (40_data_movement.md R156). -/
def execStolw (q : QOp 16) (r : Reg) (s : State) : Out :=
  complete s (2 + q.extraBytes) (q.storeWord ((s.L r).setWidth 16) s)

/-- gsto: the register group of r is read, then stored to the m-operand (40_data_movement.md R157). -/
def execGsto (n : SizeCode) (r : GReg) (m : MOp) (s : State) : Out :=
  complete s (2 + m.extraBytes) do
    let v ← r.groupRead n s
    m.write n v s

/-- leal: L[r] <- the effective address, or the value of a register or immediate; memory is not read
(40_data_movement.md R158). -/
def execLeal (q : QOp 32) (r : Reg) (s : State) : Out :=
  complete s (2 + q.extraBytes) <|
    match q.kind longImms s with
    | .reg k => .ok (s.setL r (s.L k))
    | .imm v => .ok (s.setL r v)
    | .mem a => .ok (s.setL r a)

/-- movflags: flags <- QV(word) AND 0x001f (40_data_movement.md R160). -/
def execMovflags (q : QOp 16) (s : State) : Out :=
  complete s (2 + q.extraBytes) do
    let v ← q.word s
    return s.setFlags (flagBits v)

/-- stoflags: QW(word, flags) (40_data_movement.md R161). -/
def execStoflags (q : QOp 16) (s : State) : Out :=
  complete s (2 + q.extraBytes) (q.storeWord s.flags s)

/-- set0w: QW(word, cond(c) ? 1 : 0) (40_data_movement.md R162). -/
def execSet0w (q : QOp 16) (c : Cond) (s : State) : Out :=
  complete s (2 + q.extraBytes) (q.storeWord (if condHolds s.flags c then 1 else 0) s)

/-- set1w: QW(word, cond(c) ? 1 : 0) (40_data_movement.md R163). -/
def execSet1w (q : QOp 16) (c : Cond) (s : State) : Out :=
  complete s (2 + q.extraBytes) (q.storeWord (if condHolds s.flags c then 1 else 0) s)

/-- set0l: QW(long, cond(c) ? 1 : 0) (40_data_movement.md R164). -/
def execSet0l (q : QOp 32) (c : Cond) (s : State) : Out :=
  complete s (2 + q.extraBytes) (q.storeLong (if condHolds s.flags c then 1 else 0) s)

/-- set1l: QW(long, cond(c) ? 1 : 0) (40_data_movement.md R165). -/
def execSet1l (q : QOp 32) (c : Cond) (s : State) : Out :=
  complete s (2 + q.extraBytes) (q.storeLong (if condHolds s.flags c then 1 else 0) s)

end Sys2Proof.Machine
end

