-- ==== Sys2Proof/Machine/Divide.lean ====
section
/-! DEFINITION. The divide, remainder, absolute value and square root instructions (42_divide_other_arith.md). -/

namespace Sys2Proof.Machine

/-- The test every integer division makes first: a divisor of 0 raises DivideByZero (42_divide_other_arith.md R222). -/
def nonzeroDivisor (s : State) {n : Nat} (d : BitVec n) : Except Fault Unit :=
  if d = 0 then .error (.divideByZero s.pc) else .ok ()

/-- The test every signed instruction that writes a quotient makes next: the most negative dividend over -1 raises
DivideOverflow (42_divide_other_arith.md R222). -/
def quotientFits (s : State) {n m : Nat} (a : BitVec n) (d : BitVec m) : Except Fault Unit :=
  if a = BitVec.intMin n ∧ d = BitVec.allOnes m then .error (.divideOverflow s.pc) else .ok ()

/-- The register a q-operand is, none for a memory operand or an immediate (30_encoding.md R100). -/
def qopReg {n : Nat} : QOp n → Option Reg
  | .reg k => some k
  | .base _ | .bd2 _ _ | .mema _ | .immMinus1 | .imm0 | .imm1 | .immv _ | .imm2 _ | .x _ => none

/-- The remainder written back where the divisor is a word register (42_divide_other_arith.md R221). -/
def State.remainderW (s : State) (q : QOp 16) (v : Word) : State :=
  match qopReg q with
  | some k => s.setW k v
  | none => s

/-- The remainder written back where the divisor is a long register (42_divide_other_arith.md R221). -/
def State.remainderL (s : State) (q : QOp 32) (v : Long) : State :=
  match qopReg q with
  | some k => s.setL k v
  | none => s

/-- divuw: unsigned, W[r] <- W[r] / d (42_divide_other_arith.md R223). -/
def execDivuw (q : QOp 16) (r : Reg) (s : State) : Out :=
  complete s (2 + q.extraBytes) do
    let v ← q.word s
    nonzeroDivisor s v
    return s.setW r (BitVec.ofNat 16 ((s.W r).toNat / v.toNat))

/-- divsw: signed, W[r] <- W[r] / d (42_divide_other_arith.md R224). -/
def execDivsw (q : QOp 16) (r : Reg) (s : State) : Out :=
  complete s (2 + q.extraBytes) do
    let v ← q.word s
    nonzeroDivisor s v
    quotientFits s (s.W r) v
    return s.setW r (BitVec.ofInt 16 ((s.W r).toInt.tdiv v.toInt))

/-- divul: unsigned, L[r] <- L[r] / d (42_divide_other_arith.md R225). -/
def execDivul (q : QOp 32) (r : Reg) (s : State) : Out :=
  complete s (2 + q.extraBytes) do
    let v ← q.long s
    nonzeroDivisor s v
    return s.setL r (BitVec.ofNat 32 ((s.L r).toNat / v.toNat))

/-- divsl: signed, L[r] <- L[r] / d (42_divide_other_arith.md R226). -/
def execDivsl (q : QOp 32) (r : Reg) (s : State) : Out :=
  complete s (2 + q.extraBytes) do
    let v ← q.long s
    nonzeroDivisor s v
    quotientFits s (s.L r) v
    return s.setL r (BitVec.ofInt 32 ((s.L r).toInt.tdiv v.toInt))

/-- remuw: unsigned, W[r] <- W[r] rem d (42_divide_other_arith.md R227). -/
def execRemuw (q : QOp 16) (r : Reg) (s : State) : Out :=
  complete s (2 + q.extraBytes) do
    let v ← q.word s
    nonzeroDivisor s v
    return s.setW r (BitVec.ofNat 16 ((s.W r).toNat % v.toNat))

/-- remsw: signed, W[r] <- W[r] rem d (42_divide_other_arith.md R228). -/
def execRemsw (q : QOp 16) (r : Reg) (s : State) : Out :=
  complete s (2 + q.extraBytes) do
    let v ← q.word s
    nonzeroDivisor s v
    return s.setW r (BitVec.ofInt 16 ((s.W r).toInt.tmod v.toInt))

/-- remul: unsigned, L[r] <- L[r] rem d (42_divide_other_arith.md R229). -/
def execRemul (q : QOp 32) (r : Reg) (s : State) : Out :=
  complete s (2 + q.extraBytes) do
    let v ← q.long s
    nonzeroDivisor s v
    return s.setL r (BitVec.ofNat 32 ((s.L r).toNat % v.toNat))

/-- remsl: signed, L[r] <- L[r] rem d (42_divide_other_arith.md R230). -/
def execRemsl (q : QOp 32) (r : Reg) (s : State) : Out :=
  complete s (2 + q.extraBytes) do
    let v ← q.long s
    nonzeroDivisor s v
    return s.setL r (BitVec.ofInt 32 ((s.L r).toInt.tmod v.toInt))

/-- divruw: unsigned, W[r] <- W[r] / d, then a register divisor <- the remainder (42_divide_other_arith.md R231).
-/
def execDivruw (q : QOp 16) (r : Reg) (s : State) : Out :=
  complete s (2 + q.extraBytes) do
    let v ← q.word s
    nonzeroDivisor s v
    return (s.setW r (BitVec.ofNat 16 ((s.W r).toNat / v.toNat))).remainderW q
      (BitVec.ofNat 16 ((s.W r).toNat % v.toNat))

/-- divrsw: signed, W[r] <- W[r] / d, then a register divisor <- the remainder (42_divide_other_arith.md R232). -/
def execDivrsw (q : QOp 16) (r : Reg) (s : State) : Out :=
  complete s (2 + q.extraBytes) do
    let v ← q.word s
    nonzeroDivisor s v
    quotientFits s (s.W r) v
    return (s.setW r (BitVec.ofInt 16 ((s.W r).toInt.tdiv v.toInt))).remainderW q
      (BitVec.ofInt 16 ((s.W r).toInt.tmod v.toInt))

/-- divrul: unsigned, L[r] <- L[r] / d, then a register divisor <- the remainder (42_divide_other_arith.md R233).
-/
def execDivrul (q : QOp 32) (r : Reg) (s : State) : Out :=
  complete s (2 + q.extraBytes) do
    let v ← q.long s
    nonzeroDivisor s v
    return (s.setL r (BitVec.ofNat 32 ((s.L r).toNat / v.toNat))).remainderL q
      (BitVec.ofNat 32 ((s.L r).toNat % v.toNat))

/-- divrsl: signed, L[r] <- L[r] / d, then a register divisor <- the remainder (42_divide_other_arith.md R234). -/
def execDivrsl (q : QOp 32) (r : Reg) (s : State) : Out :=
  complete s (2 + q.extraBytes) do
    let v ← q.long s
    nonzeroDivisor s v
    quotientFits s (s.L r) v
    return (s.setL r (BitVec.ofInt 32 ((s.L r).toInt.tdiv v.toInt))).remainderL q
      (BitVec.ofInt 32 ((s.L r).toInt.tmod v.toInt))

/-- divrulw: unsigned, L[r] <- L[r] / d for a word d, then a register divisor <- the remainder
(42_divide_other_arith.md R235). -/
def execDivrulw (q : QOp 16) (r : Reg) (s : State) : Out :=
  complete s (2 + q.extraBytes) do
    let v ← q.word s
    nonzeroDivisor s v
    return (s.setL r (BitVec.ofNat 32 ((s.L r).toNat / v.toNat))).remainderW q
      (BitVec.ofNat 16 ((s.L r).toNat % v.toNat))

/-- divrslw: signed, L[r] <- L[r] / d for a word d, then a register divisor <- the remainder
(42_divide_other_arith.md R236). -/
def execDivrslw (q : QOp 16) (r : Reg) (s : State) : Out :=
  complete s (2 + q.extraBytes) do
    let v ← q.word s
    nonzeroDivisor s v
    quotientFits s (s.L r) v
    return (s.setL r (BitVec.ofInt 32 ((s.L r).toInt.tdiv v.toInt))).remainderW q
      (BitVec.ofInt 16 ((s.L r).toInt.tmod v.toInt))

/-- divf: F[r] <- F[r] / QV(float), rounded once (42_divide_other_arith.md R237). -/
def execDivf (q : QOp 32) (r : Reg) (s : State) : Out :=
  complete s (2 + q.extraBytes) do
    let v ← q.float s
    return s.putF r (single.div (s.F r).toNat v.toNat)

/-- divd: D[r] <- D[r] / QV(double), rounded once (42_divide_other_arith.md R238). -/
def execDivd (q : QOp 64) (r : Reg) (s : State) : Out :=
  complete s (2 + q.extraBytes) do
    let v ← q.double s
    return s.putD r (double.div (s.D r).toNat v.toNat)

/-- absw: W[r] <- v < 0 ? -v : v, modulo 2^16 (42_divide_other_arith.md R240). -/
def execAbsw (q : QOp 16) (r : Reg) (s : State) : Out :=
  complete s (2 + q.extraBytes) do
    let v ← q.word s
    return s.setW r (if v.slt 0 then 0 - v else v)

/-- absl: L[r] <- v < 0 ? -v : v, modulo 2^32 (42_divide_other_arith.md R241). -/
def execAbsl (q : QOp 32) (r : Reg) (s : State) : Out :=
  complete s (2 + q.extraBytes) do
    let v ← q.long s
    return s.setL r (if v.slt 0 then 0 - v else v)

/-- absf: F[r] <- v with its sign bit cleared where v compares less than 0, else v (42_divide_other_arith.md R242).
-/
def execAbsf (q : QOp 32) (r : Reg) (s : State) : Out :=
  complete s (2 + q.extraBytes) do
    let v ← q.float s
    return s.setF r (if single.isNegative v.toNat then v &&& 0x7fffffff else v)

/-- absd: D[r] <- v with its sign bit cleared where v compares less than 0, else v (42_divide_other_arith.md R243).
-/
def execAbsd (q : QOp 64) (r : Reg) (s : State) : Out :=
  complete s (2 + q.extraBytes) do
    let v ← q.double s
    return s.setD r (if double.isNegative v.toNat then v &&& 0x7fffffffffffffff else v)

/-- sqrtf: F[r] <- sqrt(QV(float)), rounded once (42_divide_other_arith.md R244). -/
def execSqrtf (q : QOp 32) (r : Reg) (s : State) : Out :=
  complete s (2 + q.extraBytes) do
    let v ← q.float s
    return s.putF r (single.sqrt v.toNat)

/-- sqrtd: D[r] <- sqrt(QV(double)), rounded once (42_divide_other_arith.md R245). -/
def execSqrtd (q : QOp 64) (r : Reg) (s : State) : Out :=
  complete s (2 + q.extraBytes) do
    let v ← q.double s
    return s.putD r (double.sqrt v.toNat)

end Sys2Proof.Machine
end

