-- ==== Sys2Proof/Machine/ShiftLogical.lean ====
section
/-! DEFINITION. The shift, rotate and logical instructions (43_shift_logical.md). A count of the register width or more
is meant as R260 defines it: shifts lose every bit, rotates take the count modulo the width. -/

namespace Sys2Proof.Machine

/-- slw: W[r] <- shl_16(W[r], c) for a byte count c (43_shift_logical.md R261). -/
def execSlw (q : QOp 8) (r : Reg) (s : State) : Out :=
  complete s (2 + q.extraBytes) do
    let v ← q.byteW s
    return s.setW r (s.W r <<< v.toNat)

/-- sll: L[r] <- shl_32(L[r], c) for a byte count c (43_shift_logical.md R262). -/
def execSll (q : QOp 8) (r : Reg) (s : State) : Out :=
  complete s (2 + q.extraBytes) do
    let v ← q.byteL s
    return s.setL r (s.L r <<< v.toNat)

/-- srlw: W[r] <- shr_16(W[r], c) for a byte count c (43_shift_logical.md R263). -/
def execSrlw (q : QOp 8) (r : Reg) (s : State) : Out :=
  complete s (2 + q.extraBytes) do
    let v ← q.byteW s
    return s.setW r (s.W r >>> v.toNat)

/-- srll: L[r] <- shr_32(L[r], c) for a byte count c (43_shift_logical.md R264). -/
def execSrll (q : QOp 8) (r : Reg) (s : State) : Out :=
  complete s (2 + q.extraBytes) do
    let v ← q.byteL s
    return s.setL r (s.L r >>> v.toNat)

/-- sraw: W[r] <- sar_16(W[r], c) for a byte count c (43_shift_logical.md R265). -/
def execSraw (q : QOp 8) (r : Reg) (s : State) : Out :=
  complete s (2 + q.extraBytes) do
    let v ← q.byteW s
    return s.setW r ((s.W r).sshiftRight v.toNat)

/-- sral: L[r] <- sar_32(L[r], c) for a byte count c (43_shift_logical.md R266). -/
def execSral (q : QOp 8) (r : Reg) (s : State) : Out :=
  complete s (2 + q.extraBytes) do
    let v ← q.byteL s
    return s.setL r ((s.L r).sshiftRight v.toNat)

/-- sliw: W[r] <- shl_16(W[r], sc) (43_shift_logical.md R267). -/
def execSliw (sc : Fin 32) (r : Reg) (s : State) : Out :=
  complete s 2 (.ok (s.setW r (s.W r <<< sc.val)))

/-- slil: L[r] <- shl_32(L[r], sc) (43_shift_logical.md R268). -/
def execSlil (sc : Fin 32) (r : Reg) (s : State) : Out :=
  complete s 2 (.ok (s.setL r (s.L r <<< sc.val)))

/-- srliw: W[r] <- shr_16(W[r], sc) (43_shift_logical.md R269). -/
def execSrliw (sc : Fin 32) (r : Reg) (s : State) : Out :=
  complete s 2 (.ok (s.setW r (s.W r >>> sc.val)))

/-- srlil: L[r] <- shr_32(L[r], sc) (43_shift_logical.md R270). -/
def execSrlil (sc : Fin 32) (r : Reg) (s : State) : Out :=
  complete s 2 (.ok (s.setL r (s.L r >>> sc.val)))

/-- sraiw: W[r] <- sar_16(W[r], sc) (43_shift_logical.md R271). -/
def execSraiw (sc : Fin 32) (r : Reg) (s : State) : Out :=
  complete s 2 (.ok (s.setW r ((s.W r).sshiftRight sc.val)))

/-- srail: L[r] <- sar_32(L[r], sc) (43_shift_logical.md R272). -/
def execSrail (sc : Fin 32) (r : Reg) (s : State) : Out :=
  complete s 2 (.ok (s.setL r ((s.L r).sshiftRight sc.val)))

/-- rlw: W[r] <- rol_16(W[r], c) for a byte count c (43_shift_logical.md R273). -/
def execRlw (q : QOp 8) (r : Reg) (s : State) : Out :=
  complete s (2 + q.extraBytes) do
    let v ← q.byteW s
    return s.setW r ((s.W r).rotateLeft v.toNat)

/-- rll: L[r] <- rol_32(L[r], c) for a byte count c (43_shift_logical.md R274). -/
def execRll (q : QOp 8) (r : Reg) (s : State) : Out :=
  complete s (2 + q.extraBytes) do
    let v ← q.byteL s
    return s.setL r ((s.L r).rotateLeft v.toNat)

/-- rrw: W[r] <- ror_16(W[r], c) for a byte count c (43_shift_logical.md R275). -/
def execRrw (q : QOp 8) (r : Reg) (s : State) : Out :=
  complete s (2 + q.extraBytes) do
    let v ← q.byteW s
    return s.setW r ((s.W r).rotateRight v.toNat)

/-- rrl: L[r] <- ror_32(L[r], c) for a byte count c (43_shift_logical.md R276). -/
def execRrl (q : QOp 8) (r : Reg) (s : State) : Out :=
  complete s (2 + q.extraBytes) do
    let v ← q.byteL s
    return s.setL r ((s.L r).rotateRight v.toNat)

/-- rliw: W[r] <- rol_16(W[r], sc) (43_shift_logical.md R277). -/
def execRliw (sc : Fin 32) (r : Reg) (s : State) : Out :=
  complete s 2 (.ok (s.setW r ((s.W r).rotateLeft sc.val)))

/-- rlil: L[r] <- rol_32(L[r], sc) (43_shift_logical.md R278). -/
def execRlil (sc : Fin 32) (r : Reg) (s : State) : Out :=
  complete s 2 (.ok (s.setL r ((s.L r).rotateLeft sc.val)))

/-- rriw: W[r] <- ror_16(W[r], sc) (43_shift_logical.md R279). -/
def execRriw (sc : Fin 32) (r : Reg) (s : State) : Out :=
  complete s 2 (.ok (s.setW r ((s.W r).rotateRight sc.val)))

/-- rril: L[r] <- ror_32(L[r], sc) (43_shift_logical.md R280). -/
def execRril (sc : Fin 32) (r : Reg) (s : State) : Out :=
  complete s 2 (.ok (s.setL r ((s.L r).rotateRight sc.val)))

/-- andw: W[r] <- W[r] AND QV(word) (43_shift_logical.md R282). -/
def execAndw (q : QOp 16) (r : Reg) (s : State) : Out :=
  complete s (2 + q.extraBytes) do
    let v ← q.word s
    return s.setW r (s.W r &&& v)

/-- andl: L[r] <- L[r] AND QV(long) (43_shift_logical.md R283). -/
def execAndl (q : QOp 32) (r : Reg) (s : State) : Out :=
  complete s (2 + q.extraBytes) do
    let v ← q.long s
    return s.setL r (s.L r &&& v)

/-- orw: W[r] <- W[r] OR QV(word) (43_shift_logical.md R284). -/
def execOrw (q : QOp 16) (r : Reg) (s : State) : Out :=
  complete s (2 + q.extraBytes) do
    let v ← q.word s
    return s.setW r (s.W r ||| v)

/-- orl: L[r] <- L[r] OR QV(long) (43_shift_logical.md R285). -/
def execOrl (q : QOp 32) (r : Reg) (s : State) : Out :=
  complete s (2 + q.extraBytes) do
    let v ← q.long s
    return s.setL r (s.L r ||| v)

/-- xorw: W[r] <- W[r] XOR QV(word) (43_shift_logical.md R286). -/
def execXorw (q : QOp 16) (r : Reg) (s : State) : Out :=
  complete s (2 + q.extraBytes) do
    let v ← q.word s
    return s.setW r (s.W r ^^^ v)

/-- xorl: L[r] <- L[r] XOR QV(long) (43_shift_logical.md R287). -/
def execXorl (q : QOp 32) (r : Reg) (s : State) : Out :=
  complete s (2 + q.extraBytes) do
    let v ← q.long s
    return s.setL r (s.L r ^^^ v)

/-- notw: W[r] <- NOT QV(word) (43_shift_logical.md R288). -/
def execNotw (q : QOp 16) (r : Reg) (s : State) : Out :=
  complete s (2 + q.extraBytes) do
    let v ← q.word s
    return s.setW r (~~~v)

/-- notl: L[r] <- NOT QV(long) (43_shift_logical.md R289). -/
def execNotl (q : QOp 32) (r : Reg) (s : State) : Out :=
  complete s (2 + q.extraBytes) do
    let v ← q.long s
    return s.setL r (~~~v)

end Sys2Proof.Machine
end

