-- ==== Sys2Proof/Machine/Dispatch.lean ====
section
/-! DEFINITION. The meaning of every instruction, one arm per row of the opcode table. -/

namespace Sys2Proof.Machine

def exec (i : Instr) (s : State) : Host.Outcome State Fault Refusal :=
  match i with
  | .absd q r => Sys2Proof.Machine.execAbsd q r s
  | .absf q r => Sys2Proof.Machine.execAbsf q r s
  | .absl q r => Sys2Proof.Machine.execAbsl q r s
  | .absw q r => Sys2Proof.Machine.execAbsw q r s
  | .addcl q r => Sys2Proof.Machine.execAddcl q r s
  | .addd q r => Sys2Proof.Machine.execAddd q r s
  | .addf q r => Sys2Proof.Machine.execAddf q r s
  | .addl q r => Sys2Proof.Machine.execAddl q r s
  | .addswl q r => Sys2Proof.Machine.execAddswl q r s
  | .adduwl q r => Sys2Proof.Machine.execAdduwl q r s
  | .addw q r => Sys2Proof.Machine.execAddw q r s
  | .andl q r => Sys2Proof.Machine.execAndl q r s
  | .andw q r => Sys2Proof.Machine.execAndw q r s
  | .call c j => Sys2Proof.Machine.execCall c j s
  | .callb off => Sys2Proof.Machine.execCallb off s
  | .callf off => Sys2Proof.Machine.execCallf off s
  | .cmpd q r => Sys2Proof.Machine.execCmpd q r s
  | .cmpf q r => Sys2Proof.Machine.execCmpf q r s
  | .cmpl q r => Sys2Proof.Machine.execCmpl q r s
  | .cmplb q r => Sys2Proof.Machine.execCmplb q r s
  | .cmpw q r => Sys2Proof.Machine.execCmpw q r s
  | .cmpwb q r => Sys2Proof.Machine.execCmpwb q r s
  | .cvtbsl q r => Sys2Proof.Machine.execCvtbsl q r s
  | .cvtbsw q r => Sys2Proof.Machine.execCvtbsw q r s
  | .cvtbzl q r => Sys2Proof.Machine.execCvtbzl q r s
  | .cvtbzw q r => Sys2Proof.Machine.execCvtbzw q r s
  | .cvtdf q r => Sys2Proof.Machine.execCvtdf q r s
  | .cvtfd q r => Sys2Proof.Machine.execCvtfd q r s
  | .cvtsld q r => Sys2Proof.Machine.execCvtsld q r s
  | .cvtslf q r => Sys2Proof.Machine.execCvtslf q r s
  | .cvttdsl q r => Sys2Proof.Machine.execCvttdsl q r s
  | .cvttdul q r => Sys2Proof.Machine.execCvttdul q r s
  | .cvttfsl q r => Sys2Proof.Machine.execCvttfsl q r s
  | .cvttful q r => Sys2Proof.Machine.execCvttful q r s
  | .cvtuld q r => Sys2Proof.Machine.execCvtuld q r s
  | .cvtulf q r => Sys2Proof.Machine.execCvtulf q r s
  | .cvtwsl q r => Sys2Proof.Machine.execCvtwsl q r s
  | .cvtwzl q r => Sys2Proof.Machine.execCvtwzl q r s
  | .divd q r => Sys2Proof.Machine.execDivd q r s
  | .divf q r => Sys2Proof.Machine.execDivf q r s
  | .divrsl q r => Sys2Proof.Machine.execDivrsl q r s
  | .divrslw q r => Sys2Proof.Machine.execDivrslw q r s
  | .divrsw q r => Sys2Proof.Machine.execDivrsw q r s
  | .divrul q r => Sys2Proof.Machine.execDivrul q r s
  | .divrulw q r => Sys2Proof.Machine.execDivrulw q r s
  | .divruw q r => Sys2Proof.Machine.execDivruw q r s
  | .divsl q r => Sys2Proof.Machine.execDivsl q r s
  | .divsw q r => Sys2Proof.Machine.execDivsw q r s
  | .divul q r => Sys2Proof.Machine.execDivul q r s
  | .divuw q r => Sys2Proof.Machine.execDivuw q r s
  | .enter stkc => Sys2Proof.Machine.execEnter stkc s
  | .entersav stkc bmsk => Sys2Proof.Machine.execEntersav stkc bmsk s
  | .gmov n r m => Sys2Proof.Machine.execGmov n r m s
  | .gsto n r m => Sys2Proof.Machine.execGsto n r m s
  | .halt => Sys2Proof.Machine.execHalt s
  | .jump c j => Sys2Proof.Machine.execJump c j s
  | .jumpb off => Sys2Proof.Machine.execJumpb off s
  | .jumpf off => Sys2Proof.Machine.execJumpf off s
  | .leal q r => Sys2Proof.Machine.execLeal q r s
  | .leave stkc => Sys2Proof.Machine.execLeave stkc s
  | .leaveres stkc bmsk => Sys2Proof.Machine.execLeaveres stkc bmsk s
  | .movbl q r => Sys2Proof.Machine.execMovbl q r s
  | .movbw q r => Sys2Proof.Machine.execMovbw q r s
  | .movd q r => Sys2Proof.Machine.execMovd q r s
  | .movf q r => Sys2Proof.Machine.execMovf q r s
  | .movflags q => Sys2Proof.Machine.execMovflags q s
  | .movl q r => Sys2Proof.Machine.execMovl q r s
  | .movw q r => Sys2Proof.Machine.execMovw q r s
  | .movwl q r => Sys2Proof.Machine.execMovwl q r s
  | .muld q r => Sys2Proof.Machine.execMuld q r s
  | .mulf q r => Sys2Proof.Machine.execMulf q r s
  | .mulsl q r => Sys2Proof.Machine.execMulsl q r s
  | .mulsw q r => Sys2Proof.Machine.execMulsw q r s
  | .mulswl q r => Sys2Proof.Machine.execMulswl q r s
  | .mulul q r => Sys2Proof.Machine.execMulul q r s
  | .muluw q r => Sys2Proof.Machine.execMuluw q r s
  | .muluwl q r => Sys2Proof.Machine.execMuluwl q r s
  | .negd q r => Sys2Proof.Machine.execNegd q r s
  | .negf q r => Sys2Proof.Machine.execNegf q r s
  | .negl q r => Sys2Proof.Machine.execNegl q r s
  | .negw q r => Sys2Proof.Machine.execNegw q r s
  | .nop => Sys2Proof.Machine.execNop s
  | .notl q r => Sys2Proof.Machine.execNotl q r s
  | .notw q r => Sys2Proof.Machine.execNotw q r s
  | .orl q r => Sys2Proof.Machine.execOrl q r s
  | .orw q r => Sys2Proof.Machine.execOrw q r s
  | .popd q => Sys2Proof.Machine.execPopd q s
  | .popf q => Sys2Proof.Machine.execPopf q s
  | .popl q => Sys2Proof.Machine.execPopl q s
  | .popregs bmsk => Sys2Proof.Machine.execPopregs bmsk s
  | .popw q => Sys2Proof.Machine.execPopw q s
  | .pushd q => Sys2Proof.Machine.execPushd q s
  | .pushf q => Sys2Proof.Machine.execPushf q s
  | .pushl q => Sys2Proof.Machine.execPushl q s
  | .pushregs bmsk => Sys2Proof.Machine.execPushregs bmsk s
  | .pushw q => Sys2Proof.Machine.execPushw q s
  | .remsl q r => Sys2Proof.Machine.execRemsl q r s
  | .remsw q r => Sys2Proof.Machine.execRemsw q r s
  | .remul q r => Sys2Proof.Machine.execRemul q r s
  | .remuw q r => Sys2Proof.Machine.execRemuw q r s
  | .ret stkc => Sys2Proof.Machine.execRet stkc s
  | .rlil sc r => Sys2Proof.Machine.execRlil sc r s
  | .rliw sc r => Sys2Proof.Machine.execRliw sc r s
  | .rll q r => Sys2Proof.Machine.execRll q r s
  | .rlw q r => Sys2Proof.Machine.execRlw q r s
  | .rril sc r => Sys2Proof.Machine.execRril sc r s
  | .rriw sc r => Sys2Proof.Machine.execRriw sc r s
  | .rrl q r => Sys2Proof.Machine.execRrl q r s
  | .rrw q r => Sys2Proof.Machine.execRrw q r s
  | .set0l q c => Sys2Proof.Machine.execSet0l q c s
  | .set0w q c => Sys2Proof.Machine.execSet0w q c s
  | .set1l q c => Sys2Proof.Machine.execSet1l q c s
  | .set1w q c => Sys2Proof.Machine.execSet1w q c s
  | .slil sc r => Sys2Proof.Machine.execSlil sc r s
  | .sliw sc r => Sys2Proof.Machine.execSliw sc r s
  | .sll q r => Sys2Proof.Machine.execSll q r s
  | .slw q r => Sys2Proof.Machine.execSlw q r s
  | .sqrtd q r => Sys2Proof.Machine.execSqrtd q r s
  | .sqrtf q r => Sys2Proof.Machine.execSqrtf q r s
  | .srail sc r => Sys2Proof.Machine.execSrail sc r s
  | .sraiw sc r => Sys2Proof.Machine.execSraiw sc r s
  | .sral q r => Sys2Proof.Machine.execSral q r s
  | .sraw q r => Sys2Proof.Machine.execSraw q r s
  | .srlil sc r => Sys2Proof.Machine.execSrlil sc r s
  | .srliw sc r => Sys2Proof.Machine.execSrliw sc r s
  | .srll q r => Sys2Proof.Machine.execSrll q r s
  | .srlw q r => Sys2Proof.Machine.execSrlw q r s
  | .stod q r => Sys2Proof.Machine.execStod q r s
  | .stof q r => Sys2Proof.Machine.execStof q r s
  | .stoflags q => Sys2Proof.Machine.execStoflags q s
  | .stol q r => Sys2Proof.Machine.execStol q r s
  | .stolb q r => Sys2Proof.Machine.execStolb q r s
  | .stolw q r => Sys2Proof.Machine.execStolw q r s
  | .stow q r => Sys2Proof.Machine.execStow q r s
  | .stowb q r => Sys2Proof.Machine.execStowb q r s
  | .subcl q r => Sys2Proof.Machine.execSubcl q r s
  | .subd q r => Sys2Proof.Machine.execSubd q r s
  | .subf q r => Sys2Proof.Machine.execSubf q r s
  | .subl q r => Sys2Proof.Machine.execSubl q r s
  | .subswl q r => Sys2Proof.Machine.execSubswl q r s
  | .subuwl q r => Sys2Proof.Machine.execSubuwl q r s
  | .subw q r => Sys2Proof.Machine.execSubw q r s
  | .xorl q r => Sys2Proof.Machine.execXorl q r s
  | .xorw q r => Sys2Proof.Machine.execXorw q r s

end Sys2Proof.Machine
end

