-- ==== Sys2Proof/Machine/Fetch.lean ====
section
/-! DEFINITION. Instruction fetch (20_memory.md R67, 60_exceptions.md R400): which bytes are fetched, which fault a
failed fetch or decode raises, and how a word of the opcode table is put where the next step fetches. -/

namespace Sys2Proof.Machine

/-- The number of bytes of the longest instruction (30_encoding.md R82). -/
def maxLength : Nat := 10

/-- The bytes at the pc, up to the longest instruction and the end of memory (20_memory.md R67). -/
def State.fetchBytes (s : State) : List Byte :=
  (List.range (min maxLength (s.params.memSize - s.pc.toNat))).map fun k => s.mem.read (s.pc.toNat + k)

/-- The fault that bytes which are not an instruction raise (60_exceptions.md R393, R394, R396). -/
def State.decodeFault (s : State) : DecodeError → Fault
  | .illegalOpcode op => .illegalOpcode s.pc op
  | .reserved => .reservedEncoding s.pc
  | .truncated off => .memoryBounds (s.pc.toNat + off)

/-- Fetch and decode, in the order of 60_exceptions.md R400: an odd pc first, then the opcode, then the fields in
increasing address order. -/
def State.fetch (s : State) : Except Fault Instr :=
  if s.pc.toNat % 2 = 1 then .error (.misalignedPC s.pc)
  else
    match decode s.params s.fetchBytes with
    | .ok i => .ok i
    | .error e => .error (s.decodeFault e)

/-- Bytes stored from an address on, as far as memory reaches. -/
def State.placeBytes (s : State) (a : Nat) (bs : List Byte) : State :=
  s.setMem (s.mem.writeBytes a (bs.take (s.params.memSize - a)))

end Sys2Proof.Machine
end

