-- ==== Sys2Proof/Machine/Step.lean ====
section
/-! DEFINITION. One step of the machine (70_reset_and_hazards.md, 60_exceptions.md R391), and the placing of an
instruction where the next step fetches it. -/

namespace Sys2Proof.Machine

/-- One step: in Running the instruction at the pc is fetched and executed, or the fault of its fetch taken; in Halted
and Fault nothing executes and nothing changes (10_state.md R33; log 8). -/
def step (s : State) : Host.Outcome State Fault Refusal :=
  match s.status with
  | .running =>
    match s.fetch with
    | .ok i => exec i s
    | .error x => .next (s.raise x)
  | .halted => .next s
  | .fault _ => .next s

/-- The state with an instruction of the opcode table stored at the pc, and running: this stands for loading a
program (log 19). -/
def State.withFetchWord (s : State) (nbits w : Nat) : State :=
  (s.placeBytes s.pc.toNat (tableBytes nbits w)).setStatus .running

end Sys2Proof.Machine
end

