-- ==== Sys2Proof/Machine/Start.lean ====
section
/-! DEFINITION. Program start in general (10_state.md R37, 70_reset_and_hazards.md R420, R421): the start state
as a function of the parameters and of the values the spec leaves unspecified. `State.reset` is one case of it. -/

namespace Sys2Proof.Machine

/-- The values 10_state.md R37 leaves unspecified at the start. The entry of `l` for sp is not used. -/
structure Unspecified where
  w : Vector Word 8
  l : Vector Long 8
  f : Vector Long 8
  d : Vector Quad 8
  /-- Bits 4:0 of flags. -/
  flags : BitVec 5
  /-- The bytes of memory outside IMAGE. -/
  mem : Memory
deriving DecidableEq, Repr

/-- The start state for parameters, ENTRY, IMAGE and unspecified values (10_state.md R37). -/
def State.start (p : Params) (entry : Long) (image : List Byte) (u : Unspecified) : State where
  w := u.w
  l := u.l.set 7 (BitVec.ofNat 32 (p.memSize - 4))
  f := u.f
  d := u.d
  pc := entry
  flags := u.flags.setWidth 16
  status := .running
  mem := u.mem.writeBytes 0 image
  params := p
  freeCount := 0

/-- The unspecified values `State.reset` takes: all zero. DESIGN CHOICE (logs 6 and 7). -/
def zeroUnspecified : Unspecified where
  w := Vector.replicate 8 0
  l := Vector.replicate 8 0
  f := Vector.replicate 8 0
  d := Vector.replicate 8 0
  flags := 0
  mem := []

end Sys2Proof.Machine
end

