-- ==== Sys2Proof/Safety.lean ====
section
/-! DEFINITION. The terms the statements are made in: the invariant every step keeps, a safe step, the next states
an instruction can answer, written as updates of the state it started in, so that every field not named is
unchanged; and the IEEE 754 values and the rounding that floating results are held to. -/

namespace Sys2Proof.Machine

/-- The parameters obey their restrictions (00_scope.md R6), memory is in its canonical form and inside MEMSIZE
(20_memory.md R50), and bits 15:5 of flags are zero (10_state.md R30). -/
structure Inv (s : State) : Prop where
  params_wf : s.params.wf = true
  mem_wf : s.mem.wf
  mem_below : s.mem.below s.params.memSize
  flags_high : s.flags >>> 5 = 0

/-- The machine is in a fault (60_exceptions.md R391). -/
def State.faulted (s : State) : Bool :=
  match s.status with
  | .running => false
  | .halted => false
  | .fault _ => true

/-- A step is safe where it answers a next state that is not in a fault. -/
def safeStep (s : State) : Prop := ∃ t, step s = .next t ∧ t.faulted = false

/-- W[r] <- x, pc <- the next instruction, nothing else. -/
def wordResult (s : State) (len : Nat) (r : Reg) (x : Word) : Out :=
  .next { s with w := s.w.set r.val x, pc := s.pc + BitVec.ofNat 32 len }

/-- L[r] <- x, pc <- the next instruction, nothing else. -/
def longResult (s : State) (len : Nat) (r : Reg) (x : Long) : Out :=
  .next { s with l := s.l.set r.val x, pc := s.pc + BitVec.ofNat 32 len }

/-- F[r] <- x, pc <- the next instruction, nothing else. -/
def floatResult (s : State) (len : Nat) (r : Reg) (x : Long) : Out :=
  .next { s with f := s.f.set r.val x, pc := s.pc + BitVec.ofNat 32 len }

/-- D[r] <- x, pc <- the next instruction, nothing else. -/
def doubleResult (s : State) (len : Nat) (r : Reg) (x : Quad) : Out :=
  .next { s with d := s.d.set r.val x, pc := s.pc + BitVec.ofNat 32 len }

/-- flags <- x, pc <- the next instruction, nothing else. -/
def flagsResult (s : State) (len : Nat) (x : Word) : Out :=
  .next { s with flags := x, pc := s.pc + BitVec.ofNat 32 len }

/-- pc <- x, nothing else. -/
def pcResult (s : State) (x : Long) : Out := .next { s with pc := x }

/-- A fault taken, nothing else (60_exceptions.md R391, R401). -/
def trap (s : State) (x : Fault) : Out := .next { s with status := .fault x }

/-- A NaN of the float format (44_convert_compare.md R300 item 5). -/
def isNanLong (x : Long) : Prop := x &&& 0x7f800000 = 0x7f800000 ∧ x &&& 0x007fffff ≠ 0

/-- A NaN of the double format (44_convert_compare.md R300 item 5). -/
def isNanQuad (x : Quad) : Prop := x &&& 0x7ff0000000000000 = 0x7ff0000000000000 ∧ x &&& 0x000fffffffffffff ≠ 0

/-- A float result: the pattern of a value, or, where `v` is none, some NaN, which counts one free value. -/
def floatOutcome (s : State) (len : Nat) (r : Reg) (v : Option Nat) (o : Out) : Prop :=
  match v with
  | some b => o = floatResult s len r (BitVec.ofNat 32 b)
  | none => ∃ x, isNanLong x ∧ o = floatResult { s with freeCount := s.freeCount + 1 } len r x

/-- A double result: the pattern of a value, or, where `v` is none, some NaN, which counts one free value. -/
def doubleOutcome (s : State) (len : Nat) (r : Reg) (v : Option Nat) (o : Out) : Prop :=
  match v with
  | some b => o = doubleResult s len r (BitVec.ofNat 64 b)
  | none => ∃ x, isNanQuad x ∧ o = doubleResult { s with freeCount := s.freeCount + 1 } len r x

/-- The value of a finite pattern without its sign bit, by the IEEE 754 fields (00_scope.md R12): the fraction f and the
exponent field e stand for (1 + f / 2^fracBits) * 2^(e - bias), and, where e is 0, for f / 2^fracBits * 2^(1 - bias). For the
pattern of infinity it gives the power of two after the largest finite value. -/
def FloatFormat.ieeeValue (fmt : FloatFormat) (bits : Nat) : ℚ :=
  let e := bits / 2 ^ fmt.fracBits
  let f : ℚ := (bits % 2 ^ fmt.fracBits : Nat) / 2 ^ fmt.fracBits
  let bias : ℤ := 2 ^ (fmt.expBits - 1) - 1
  if e = 0 then f * 2 ^ (1 - bias) else (1 + f) * 2 ^ ((e : ℤ) - bias)

/-- `m` is the pattern without sign that the number whose `p`-th power is `q` rounds to: no midpoint of `m` and another pattern
lies between the two, and on a midpoint the last bit of `m` is 0 (44_convert_compare.md R300 item 2). Infinity takes part with the
power of two after the largest finite value, which is where overflow begins to be rounded to it (item 3). -/
def FloatFormat.nearest (fmt : FloatFormat) (p : Nat) (q : ℚ) (m : Nat) : Prop :=
  m ≤ fmt.infBits ∧ ∀ d ≤ fmt.infBits,
    let mid := ((fmt.ieeeValue d + fmt.ieeeValue m) / 2) ^ p
    (d < m → mid ≤ q) ∧ (m < d → q ≤ mid) ∧ (d ≠ m → mid = q → m % 2 = 0)

/-- A number with its sign. -/
def signedValue (neg : Bool) (q : ℚ) : ℚ := if neg then -q else q

/-- The memory of `t` is that of `s` with the `n` low bytes of `v` stored little-endian at `a`, byte by byte
(20_memory.md R53). -/
def storedAt (s t : State) (a : Long) (n v : Nat) : Prop :=
  (∀ k < n, t.mem.read (a.toNat + k) = BitVec.ofNat 8 (v / 256 ^ k)) ∧
  ∀ b, b < a.toNat ∨ a.toNat + n ≤ b → t.mem.read b = s.mem.read b

/-- `n` bytes of `v` stored at `a`, pc <- the next instruction, nothing else. -/
def storeResult (s : State) (len : Nat) (a : Long) (n v : Nat) (o : Out) : Prop :=
  ∃ t, o = .next t ∧ storedAt s t a n v ∧ t = { s with mem := t.mem, pc := s.pc + BitVec.ofNat 32 len }

/-- `n` bytes of `v` pushed, pc <- `target`, nothing else (10_state.md R27). -/
def pushResult (s : State) (n v : Nat) (target : Long) (o : Out) : Prop :=
  ∃ t, o = .next t ∧ storedAt s t (s.sp - BitVec.ofNat 32 n) n v ∧
    t = { s with mem := t.mem, l := s.l.set 7 (s.sp - BitVec.ofNat 32 n), pc := target }

/-- How many bytes the registers of a mask take on the stack (45_control_stack_misc.md R360). -/
def maskBytes (bmsk : Long) : Nat :=
  ((List.range 32).map fun n => if bmsk.getLsbD n then (GReg.ofNumber n).file.size else 0).sum

/-- The instruction that pushes one register (45_control_stack_misc.md R360). -/
def pushInstr (g : GReg) : Instr :=
  match g.file with
  | .w => .pushw (.reg g.idx)
  | .l => .pushl (.reg g.idx)
  | .f => .pushf (.reg g.idx)
  | .d => .pushd (.reg g.idx)

/-- The instruction that pops one register (45_control_stack_misc.md R361). -/
def popInstr (g : GReg) : Instr :=
  match g.file with
  | .w => .popw (.reg g.idx)
  | .l => .popl (.reg g.idx)
  | .f => .popf (.reg g.idx)
  | .d => .popd (.reg g.idx)

/-- The instructions that set the pc otherwise than to the next instruction (10_state.md R29). -/
def transfers : List Mnemonic := [.jump, .jumpf, .jumpb, .call, .callf, .callb, .ret, .leave, .leaveres]

/-- The instructions that write flags (10_state.md R31, 40_data_movement.md R160). -/
def flagWriters : List Mnemonic := [.cmpw, .cmpl, .cmpwb, .cmplb, .cmpf, .cmpd, .movflags]

/-- The instructions that can write memory (40_data_movement.md, 45_control_stack_misc.md). -/
def memoryWriters : List Mnemonic :=
  [.stow, .stol, .stof, .stod, .stowb, .stolb, .stolw, .gsto, .stoflags, .set0w, .set1w, .set0l, .set1l, .call, .callf,
   .callb, .pushw, .pushl, .pushf, .pushd, .popw, .popl, .popf, .popd, .pushregs, .enter, .entersav]

/-- The instructions that can write a float register (10_state.md R24). -/
def floatWriters : List Mnemonic :=
  [.movf, .addf, .subf, .negf, .mulf, .divf, .absf, .sqrtf, .cvtulf, .cvtslf, .cvtdf, .stof, .popf, .popregs,
   .leaveres, .gmov, .gsto]

/-- The instructions that can write a double register (10_state.md R24). -/
def doubleWriters : List Mnemonic :=
  [.movd, .addd, .subd, .negd, .muld, .divd, .absd, .sqrtd, .cvtuld, .cvtsld, .cvtfd, .stod, .popd, .popregs,
   .leaveres, .gmov, .gsto]

end Sys2Proof.Machine
end

