-- ==== Sys2Proof/Certificates/Slice0/Obligations.lean ====
section
/-! DEFINITION. The statements for the provers. Next states are written as updates of the state before (Safety.lean):
a field an update does not name is unchanged. -/

open Sys2Proof Sys2Proof.Machine

/-! ## Encoding -/

/-- Tier 3. Under every legal choice of the parameters, decoding what the encoder writes for a well-formed instruction
gives it back, whatever bytes follow (30_encoding.md R83, R85 to R131). -/
def Obligations.DecodeEncodeRoundTrip : Prop :=
  ∀ (p : Params) (i : Instr) (rest : List Byte),
    p.wf = true → i.wellFormed = true → decode p (encode p i ++ rest) = .ok i

/-- Tier 3. What decodes is a well-formed instruction, and its bytes are those the encoder writes for it; hence no
two instructions share an encoding (30_encoding.md R133). -/
def Obligations.DecodedBytesAreTheEncoding : Prop :=
  ∀ (p : Params) (bs : List Byte) (i : Instr),
    p.wf = true → decode p bs = .ok i → i.wellFormed = true ∧ bs.take i.length = encode p i

/-- Tier 1. Words written out from the spec's encodings decode to their instructions (95_test_vectors.md). -/
def Obligations.WrittenWordsDecode : Prop :=
  decode defaultParams [0x44, 0x08] = .ok (.movw (.reg 1) 0) ∧
  decode defaultParams [0x43, 0xb9, 0x02, 0x00] = .ok (.movl (.bd2 7 2) 1) ∧
  decode defaultParams [0x3b, 0xf8, 0x31, 0x02] = .ok (.leal (.x (.bi 1 0 2)) 0) ∧
  decode defaultParams [0x35, 0xe0, 0x70, 0x19] = .ok (.gmov 3 ⟨.w, 0⟩ (.mreg ⟨.d, 1⟩)) ∧
  decode defaultParams [0x73, 0x77] = .ok (.sliw 14 7) ∧
  decode defaultParams [0x71, 0x49] = .ok (.set1w (.base 1) .gu) ∧
  decode defaultParams [0x38, 0x89, 0x03, 0x00] = .ok (.jump .g (.pcrm 3)) ∧
  decode defaultParams [0x3d, 0x0b, 0x03, 0x00, 0x00, 0x80] = .ok (.leaveres 11 0x80000003)

/-- Tier 1. What is no instruction is refused by name. The default map names an instruction for exactly the opcode bytes
01 to 90 hexadecimal, and each kind of reserved pattern is refused in one opcode that can hold it: the q-field 11110, imm2
outside a long value, an immediate as an address, a high byte of a byte immediate, an unused x1-byte, a 0-byte or an
x2-byte that is not zero where it must be, reserved conditions, reserved j-fields, a qo r-field, the second byte of n0
and n04, a wrong mreg pattern, a register group that does not fit (30_encoding.md R132, R133). That a group of the
r-field is refused at the mr-byte, whatever follows and even where nothing follows, is the model's reading (log 17). -/
def Obligations.UnassignedAndReservedPatternsAreRefused : Prop :=
  (∀ (op : Byte) (rest : List Byte),
    decode defaultParams (op :: rest) = .error (.illegalOpcode op) ↔ op.toNat = 0 ∨ 0x91 ≤ op.toNat) ∧
  ∀ (b c : Byte) (rest : List Byte),
    (b.toNat / 8 = 30 → decode defaultParams (0x44 :: b :: rest) = .error .reserved) ∧
    (b.toNat / 8 = 29 → decode defaultParams (0x44 :: b :: rest) = .error .reserved) ∧
    (25 ≤ b.toNat / 8 ∧ b.toNat / 8 ≤ 27 → decode defaultParams (0x86 :: b :: rest) = .error .reserved) ∧
    (b.toNat / 8 = 28 ∧ c ≠ 0 → ∀ lo, decode defaultParams (0x3f :: b :: lo :: c :: rest) = .error .reserved) ∧
    (b.toNat / 8 = 31 ∧ c.toNat / 32 % 2 = 1 ∧ c.toNat / 8 % 2 = 1 →
      decode defaultParams (0x44 :: b :: c :: rest) = .error .reserved) ∧
    (b.toNat / 8 = 31 ∧ c.toNat / 16 = 7 → decode defaultParams (0x44 :: b :: c :: rest) = .error .reserved) ∧
    (b.toNat / 8 = 31 ∧ c.toNat / 32 = 0 → ∀ d, d ≠ 0 →
      decode defaultParams (0x44 :: b :: c :: d :: rest) = .error .reserved) ∧
    (b.toNat / 8 = 31 ∧ c.toNat / 8 = 6 → ∀ d, 32 ≤ BitVec.toNat d →
      decode defaultParams (0x44 :: b :: c :: d :: rest) = .error .reserved) ∧
    (11 ≤ b.toNat / 16 → decode defaultParams (0x38 :: b :: rest) = .error .reserved) ∧
    (3 ≤ b.toNat % 8 → decode defaultParams (0x71 :: b :: rest) = .error .reserved) ∧
    (13 ≤ b.toNat % 16 → decode defaultParams (0x38 :: b :: rest) = .error .reserved) ∧
    (b.toNat % 8 ≠ 0 → decode defaultParams (0x60 :: b :: rest) = .error .reserved) ∧
    (b ≠ 0 → decode defaultParams (0x52 :: b :: rest) = .error .reserved) ∧
    (b ≠ 0 → decode defaultParams (0x5f :: b :: rest) = .error .reserved) ∧
    (b.toNat / 32 % 2 = 1 ∧ 0x71 ≤ c.toNat ∧ c.toNat ≤ 0x77 →
      decode defaultParams (0x35 :: b :: c :: rest) = .error .reserved) ∧
    (b.toNat / 64 = 3 ∧ b.toNat % 32 / 8 = 0 ∧ 5 ≤ b.toNat % 8 →
      decode defaultParams (0x35 :: b :: rest) = .error .reserved)

/-! ## The step -/

/-- Tier 1. Where the bytes at an even pc decode to a well-formed instruction, a step of the running machine is that
instruction's effect, pc included (20_memory.md R67). -/
def Obligations.StepRunsTheDecodedInstruction : Prop :=
  ∀ (s : State) (i : Instr), s.status = .running → s.pc.toNat % 2 = 0 → i.wellFormed = true →
    decode s.params s.fetchBytes = .ok i → step s = exec i s

/-- Tier 2. Where memory holds the encoding of a well-formed instruction at an even pc, a step of the running machine
is that instruction's effect (20_memory.md R67, 30_encoding.md R83). -/
def Obligations.StepRunsTheEncodedInstruction : Prop :=
  ∀ (s : State) (i : Instr), s.params.wf = true → s.status = .running → s.pc.toNat % 2 = 0 →
    i.wellFormed = true → s.pc.toNat + i.length ≤ s.params.memSize →
    (∀ k b, (encode s.params i)[k]? = some b → s.mem.read (s.pc.toNat + k) = b) →
    step s = exec i s

/-- Tier 1. A fetch faults in the order of 60_exceptions.md R400: an odd pc first; then what the bytes there raise, an
unknown opcode, a reserved pattern, or a field past the end of memory. That MemoryBounds then names the first byte of that
field (log 14), as a number that can be 2^32 (log 15), is the model's reading of R396 and R400. -/
def Obligations.FetchFaults : Prop :=
  ∀ (s : State), s.status = .running →
    (s.pc.toNat % 2 = 1 → step s = trap s (.misalignedPC s.pc)) ∧
    (s.pc.toNat % 2 = 0 →
      (∀ op, decode s.params s.fetchBytes = .error (.illegalOpcode op) → step s = trap s (.illegalOpcode s.pc op)) ∧
      (decode s.params s.fetchBytes = .error .reserved → step s = trap s (.reservedEncoding s.pc)) ∧
      (∀ off, decode s.params s.fetchBytes = .error (.truncated off) →
        step s = trap s (.memoryBounds (s.pc.toNat + off))) ∧
      (s.params.memSize ≤ s.pc.toNat → step s = trap s (.memoryBounds s.pc.toNat)))

/-- Tier 1. A Fault or Halted status is never left, and nothing changes in it; the three returns, where they do not fault,
touch no status (60_exceptions.md R404). -/
def Obligations.TerminalStatusIsKept : Prop :=
  ∀ (s : State), (s.status ≠ .running → step s = .next s) ∧
    ∀ (stkc : Byte) (m : Long), ∀ i ∈ [Instr.ret stkc, .leave stkc, .leaveres stkc m], ∀ t,
      exec i s = .next t → (∀ x, t.status ≠ .fault x) → t.status = s.status

/-- Tier 2. Every step answers a next state: no outcome is a fault and none a refusal, in any state whatever
(60_exceptions.md R391: a fault is a status, log 8). -/
def Obligations.EveryStepAnswersANextState : Prop :=
  ∀ (s : State), ∃ t, step s = .next t

/-- Tier 3. A step that ends in a fault changes the status and nothing else, whichever instruction raised it and
however many stores or register writes it had made, and no step after it changes anything (60_exceptions.md R401). -/
def Obligations.AFaultChangesOnlyTheStatus : Prop :=
  ∀ (s t : State) (x : Fault), s.status = .running → step s = .next t → t.status = .fault x →
    t = { s with status := .fault x } ∧ step t = .next t

/-- Tier 3. Every step keeps the invariant: legal parameters, memory in canonical form and inside MEMSIZE, bits 15:5
of flags zero (00_scope.md R6, 10_state.md R30, 20_memory.md R50). -/
def Obligations.EveryStepKeepsTheInvariant : Prop :=
  ∀ (s t : State), Inv s → step s = .next t → Inv t

/-- Tier 1. The invariant holds after reset, whose zero values are the model's choice where the spec gives none (logs 6 and
7; 10_state.md R30, R37). -/
def Obligations.ResetHasTheInvariant : Prop := Inv State.reset

/-- Tier 2. The start state for any parameters, ENTRY, IMAGE and unspecified values is as 70_reset_and_hazards.md R421
says: pc, sp, status, bits 15:5 of flags, the image at 0; every other register, flag and byte is the unspecified value;
the first step of an ENTRY that is odd or not in memory faults; and the invariant holds. -/
def Obligations.StartState : Prop :=
  ∀ (p : Params) (entry : Long) (image : List Byte) (u : Unspecified),
    p.wf = true → u.mem.wf → u.mem.below p.memSize → image.length ≤ p.memSize →
    let s := State.start p entry image u
    s.pc = entry ∧ s.sp.toNat = p.memSize - 4 ∧ s.status = .running ∧ s.params = p ∧
    s.flags >>> 5 = 0 ∧ s.flags.setWidth 5 = u.flags ∧
    s.w = u.w ∧ (∀ k : Reg, k ≠ 7 → s.L k = u.l[k.val]) ∧ s.f = u.f ∧ s.d = u.d ∧
    (∀ k b, image[k]? = some b → s.mem.read k = b) ∧
    (∀ a, image.length ≤ a → s.mem.read a = u.mem.read a) ∧
    (entry.toNat % 2 = 1 → step s = trap s (.misalignedPC entry)) ∧
    (entry.toNat % 2 = 0 → p.memSize ≤ entry.toNat → step s = trap s (.memoryBounds entry.toNat)) ∧
    Inv s

/-- Tier 2. No instruction but the six compares and movflags writes flags (10_state.md R31). -/
def Obligations.OnlyComparesAndMovflagsWriteFlags : Prop :=
  ∀ (i : Instr) (s t : State), i.mnemonic ∉ flagWriters → exec i s = .next t → t.flags = s.flags

/-- Tier 2. An instruction that does not transfer control and does not fault ends with the pc at the next instruction
(10_state.md R28, R29). -/
def Obligations.OnlyTransfersMoveThePc : Prop :=
  ∀ (i : Instr) (s t : State), i.mnemonic ∉ transfers → exec i s = .next t → (∀ x, t.status ≠ .fault x) →
    t.pc = s.pc + BitVec.ofNat 32 i.length

/-- Tier 2. Memory is written only by the stores, gsto, the set instructions, the pushes, the calls, enter and entersav, and
the pops into memory; the float and the double registers only by the instructions with such a destination and by
those that name registers of any file (10_state.md R24, R26). -/
def Obligations.OnlyTheirWritersTouchMemoryAndFloatRegisters : Prop :=
  ∀ (i : Instr) (s t : State), exec i s = .next t →
    (i.mnemonic ∉ memoryWriters → t.mem = s.mem) ∧
    (i.mnemonic ∉ floatWriters → t.f = s.f) ∧
    (i.mnemonic ∉ doubleWriters → t.d = s.d)

/-! ## Memory and operands -/

/-- Tier 2. A read answers the little-endian number at the address, and a write stores its bytes and no other and is read
back, exactly where all the bytes are in memory; otherwise both raise MemoryBounds, computed without wrap-around, and
no byte is written (20_memory.md R52, R53). -/
def Obligations.MemReadAndMemWrite : Prop :=
  ∀ (s : State) (a : Long) (n v : Nat),
    (a.toNat + n ≤ s.params.memSize → ∃ x, s.memRead a n = .ok x ∧ x < 256 ^ n ∧
      ∀ k < n, BitVec.ofNat 8 (x / 256 ^ k) = s.mem.read (a.toNat + k)) ∧
    (s.mem.wf → a.toNat + n ≤ s.params.memSize → ∃ t, s.memWrite a n v = .ok t ∧ storedAt s t a n v ∧
      t.memRead a n = .ok (v % 256 ^ n) ∧ t = { s with mem := t.mem }) ∧
    (s.params.memSize < a.toNat + n →
      s.memRead a n = .error (.memoryBounds a.toNat) ∧ s.memWrite a n v = .error (.memoryBounds a.toNat))

/-- Tier 2. The effective address of each x-byte mode is the sum of base, scaled index and signed displacement, reduced
modulo 2^32 (30_encoding.md R105 to R108). -/
def Obligations.EffectiveAddressesAreSums : Prop :=
  ∀ (s : State) (sc : Scale) (k j : Reg) (d1 : BitVec 8) (d2 : BitVec 16) (d3 : BitVec 24) (d4 : Long),
    let b : Int := (s.L k).toNat
    let i : Int := (s.L k).toNat * 2 ^ sc.val
    let x : Int := (s.L j).toNat * 2 ^ sc.val
    (((XMode.i sc k).ea s).toNat : Int) = i % 4294967296 ∧
    (((XMode.id1 sc k d1).ea s).toNat : Int) = (i + d1.toInt) % 4294967296 ∧
    (((XMode.id3 sc k d3).ea s).toNat : Int) = (i + d3.toInt) % 4294967296 ∧
    (((XMode.id4 sc k d4).ea s).toNat : Int) = (i + d4.toInt) % 4294967296 ∧
    (((XMode.b k).ea s).toNat : Int) = b ∧
    (((XMode.bd1 k d1).ea s).toNat : Int) = (b + d1.toInt) % 4294967296 ∧
    (((XMode.bd3 k d3).ea s).toNat : Int) = (b + d3.toInt) % 4294967296 ∧
    (((XMode.bd4 k d4).ea s).toNat : Int) = (b + d4.toInt) % 4294967296 ∧
    (((XMode.bi k sc j).ea s).toNat : Int) = (b + x) % 4294967296 ∧
    (((XMode.bid2 k sc j d2).ea s).toNat : Int) = (b + x + d2.toInt) % 4294967296 ∧
    (((XMode.bid4 k sc j d4).ea s).toNat : Int) = (b + x + d4.toInt) % 4294967296

/-- Tier 1. What a q-operand denotes: a register of the class its specifier implies, the immediate of its type, or, for
every form that resolves to an address, the memory there (30_encoding.md R89 to R95, R100 to R102). -/
def Obligations.QOperandValues : Prop :=
  ∀ (s : State) (k : Reg) (b : Byte) (h : Word) (v : Long) (x : Quad),
    (QOp.reg k).word s = .ok (s.W k) ∧ (QOp.reg k).long s = .ok (s.L k) ∧
    (QOp.reg k).float s = .ok (s.F k) ∧ (QOp.reg k).double s = .ok (s.D k) ∧
    (QOp.reg k).byteW s = .ok ((s.W k).setWidth 8) ∧ (QOp.reg k).byteL s = .ok ((s.L k).setWidth 8) ∧
    QOp.immMinus1.byteW s = .ok 0xff ∧ QOp.imm0.byteW s = .ok 0 ∧ QOp.imm1.byteW s = .ok 1 ∧
    QOp.immMinus1.byteL s = .ok 0xff ∧ QOp.imm0.byteL s = .ok 0 ∧ QOp.imm1.byteL s = .ok 1 ∧
    QOp.immMinus1.word s = .ok 0xffff ∧ QOp.imm0.word s = .ok 0 ∧ QOp.imm1.word s = .ok 1 ∧
    QOp.immMinus1.long s = .ok 0xffffffff ∧ QOp.imm0.long s = .ok 0 ∧ QOp.imm1.long s = .ok 1 ∧
    QOp.immMinus1.float s = .ok 0xbf800000 ∧ QOp.imm0.float s = .ok 0 ∧ QOp.imm1.float s = .ok 0x3f800000 ∧
    QOp.immMinus1.double s = .ok 0xbff0000000000000 ∧ QOp.imm0.double s = .ok 0 ∧
    QOp.imm1.double s = .ok 0x3ff0000000000000 ∧
    (QOp.immv b).byteW s = .ok b ∧ (QOp.immv b).byteL s = .ok b ∧ (QOp.immv h).word s = .ok h ∧
    (QOp.immv v).long s = .ok v ∧ (QOp.immv v).float s = .ok v ∧ (QOp.immv x).double s = .ok x ∧
    (QOp.imm2 h).long s = .ok (BitVec.ofInt 32 h.toInt) ∧
    (∀ (q : QOp 16) (a : Long), q.kind wordImms s = .mem a → q.word s = (s.memRead a 2).map (BitVec.ofNat 16)) ∧
    (∀ (q : QOp 32) (a : Long), q.kind longImms s = .mem a → q.long s = (s.memRead a 4).map (BitVec.ofNat 32)) ∧
    (∀ (q : QOp 32) (a : Long), q.kind floatImms s = .mem a → q.float s = (s.memRead a 4).map (BitVec.ofNat 32)) ∧
    (∀ (q : QOp 64) (a : Long), q.kind doubleImms s = .mem a → q.double s = (s.memRead a 8).map (BitVec.ofNat 64)) ∧
    (∀ (q : QOp 8) (a : Long), q.kind byteImms s = .mem a → q.byteW s = (s.memRead a 1).map (BitVec.ofNat 8)) ∧
    (∀ (q : QOp 8) (a : Long), q.kind byteImms s = .mem a → q.byteL s = (s.memRead a 1).map (BitVec.ofNat 8)) ∧
    (∀ (n : Nat) (t : ImmTable n) (a : Long) (d : BitVec 16) (m : XMode),
      (QOp.base k).kind t s = .mem (s.L k) ∧ (QOp.bd2 k d).kind t s = .mem (s.L k + BitVec.ofInt 32 d.toInt) ∧
      (QOp.mema a).kind t s = .mem a ∧ (QOp.x m).kind t s = .mem (m.ea s))

/-- Tier 1. Every instruction whose operand cannot be read, or whose destination in memory cannot be written, takes the
fault of that access and changes nothing else, whatever its registers hold (60_exceptions.md R396, R401). -/
def Obligations.FailingOperandsTakeTheirFault : Prop :=
  (∀ (q : QOp 16) (r : Reg) (s : State) (x : Fault), q.word s = .error x → ∀ i ∈
      [Instr.movw q r, .addw q r, .subw q r, .negw q r, .muluw q r, .mulsw q r, .absw q r, .andw q r, .orw q r,
       .xorw q r, .notw q r, .movwl q r, .adduwl q r, .addswl q r, .subuwl q r, .subswl q r, .muluwl q r,
       .mulswl q r, .cvtwzl q r, .cvtwsl q r, .divuw q r, .divsw q r, .remuw q r, .remsw q r, .divruw q r,
       .divrsw q r, .divrulw q r, .divrslw q r, .cmpw q r, .movflags q, .pushw q],
      exec i s = trap s x) ∧
  (∀ (q : QOp 32) (r : Reg) (s : State) (x : Fault), q.long s = .error x → ∀ i ∈
      [Instr.movl q r, .addl q r, .subl q r, .negl q r, .mulul q r, .mulsl q r, .absl q r, .andl q r, .orl q r,
       .xorl q r, .notl q r, .divul q r, .divsl q r, .remul q r, .remsl q r, .divrul q r, .divrsl q r, .cmpl q r,
       .cvtulf q r, .cvtslf q r, .cvtuld q r, .cvtsld q r, .pushl q],
      exec i s = trap s x) ∧
  (∀ (q : QOp 32) (r : Reg) (s : State) (x : Fault), q.float s = .error x → ∀ i ∈
      [Instr.movf q r, .addf q r, .subf q r, .negf q r, .mulf q r, .divf q r, .absf q r, .sqrtf q r, .cvtfd q r,
       .cvttful q r, .cvttfsl q r, .cmpf q r, .pushf q],
      exec i s = trap s x) ∧
  (∀ (q : QOp 64) (r : Reg) (s : State) (x : Fault), q.double s = .error x → ∀ i ∈
      [Instr.movd q r, .addd q r, .subd q r, .negd q r, .muld q r, .divd q r, .absd q r, .sqrtd q r, .cvtdf q r,
       .cvttdul q r, .cvttdsl q r, .cmpd q r, .pushd q],
      exec i s = trap s x) ∧
  (∀ (q : QOp 8) (r : Reg) (s : State) (x : Fault), q.byteW s = .error x → ∀ i ∈
      [Instr.movbw q r, .cvtbzw q r, .cvtbsw q r, .cmpwb q r, .slw q r, .srlw q r, .sraw q r, .rlw q r, .rrw q r],
      exec i s = trap s x) ∧
  (∀ (q : QOp 8) (r : Reg) (s : State) (x : Fault), q.byteL s = .error x → ∀ i ∈
      [Instr.movbl q r, .cvtbzl q r, .cvtbsl q r, .cmplb q r, .sll q r, .srll q r, .sral q r, .rll q r, .rrl q r],
      exec i s = trap s x) ∧
  (∀ (q : QOp 16) (r : Reg) (c : Cond) (s : State) (a : Long), q.kind wordImms s = .mem a →
    s.params.memSize < a.toNat + 2 → ∀ i ∈
      [Instr.stow q r, .stolw q r, .stoflags q, .set0w q c, .set1w q c],
      exec i s = trap s (.memoryBounds a.toNat)) ∧
  (∀ (q : QOp 32) (r : Reg) (c : Cond) (s : State) (a : Long), q.kind longImms s = .mem a →
    s.params.memSize < a.toNat + 4 → ∀ i ∈
      [Instr.stol q r, .stof q r, .set0l q c, .set1l q c],
      exec i s = trap s (.memoryBounds a.toNat)) ∧
  (∀ (q : QOp 64) (r : Reg) (s : State) (a : Long), q.kind doubleImms s = .mem a →
    s.params.memSize < a.toNat + 8 → ∀ i ∈
      [Instr.stod q r],
      exec i s = trap s (.memoryBounds a.toNat)) ∧
  (∀ (q : QOp 8) (r : Reg) (s : State) (a : Long), q.kind byteImms s = .mem a →
    s.params.memSize < a.toNat + 1 → ∀ i ∈
      [Instr.stowb q r, .stolb q r],
      exec i s = trap s (.memoryBounds a.toNat)) ∧
  ∀ (n : SizeCode) (g : GReg) (m : MOp) (s : State) (a : Long), g.groupFits n = true →
    m = .mmema a ∨ (∃ x, m = .x x ∧ x.ea s = a) → s.params.memSize < a.toNat + n.bytes →
    ∀ i ∈ [Instr.gmov n g m, .gsto n g m], exec i s = trap s (.memoryBounds a.toNat)

/-! ## Integer results -/

/-- Tier 1. The word instructions with a word destination and the long instructions with a long destination complete wherever
their operand is readable, with these results and no other change (40_data_movement.md R141, R142, 41_add_sub_mul.md R182,
R183, R189, R190, R196, R197, R201 to R204, 42_divide_other_arith.md R240, R241, 43_shift_logical.md R282 to R289). -/
def Obligations.WordAndLongRegisterResults : Prop :=
  (∀ (q : QOp 16) (r : Reg) (s : State) (v : Word), q.word s = .ok v →
    let out := wordResult s (2 + q.extraBytes) r
    exec (.movw q r) s = out v ∧
    exec (.addw q r) s = out (BitVec.ofNat 16 ((s.W r).toNat + v.toNat)) ∧
    exec (.subw q r) s = out (BitVec.ofInt 16 ((s.W r).toInt - v.toInt)) ∧
    exec (.negw q r) s = out (BitVec.ofInt 16 (-v.toInt)) ∧
    exec (.muluw q r) s = out (BitVec.ofNat 16 ((s.W r).toNat * v.toNat)) ∧
    exec (.mulsw q r) s = out (BitVec.ofInt 16 ((s.W r).toInt * v.toInt)) ∧
    exec (.absw q r) s = out (BitVec.ofInt 16 v.toInt.natAbs) ∧
    exec (.andw q r) s = out (s.W r &&& v) ∧
    exec (.orw q r) s = out (s.W r ||| v) ∧
    exec (.xorw q r) s = out (s.W r ^^^ v) ∧
    exec (.notw q r) s = out (0xffff - v)) ∧
  (∀ (q : QOp 32) (r : Reg) (s : State) (v : Long), q.long s = .ok v →
    let out := longResult s (2 + q.extraBytes) r
    exec (.movl q r) s = out v ∧
    exec (.addl q r) s = out (BitVec.ofNat 32 ((s.L r).toNat + v.toNat)) ∧
    exec (.subl q r) s = out (BitVec.ofInt 32 ((s.L r).toInt - v.toInt)) ∧
    exec (.negl q r) s = out (BitVec.ofInt 32 (-v.toInt)) ∧
    exec (.mulul q r) s = out (BitVec.ofNat 32 ((s.L r).toNat * v.toNat)) ∧
    exec (.mulsl q r) s = out (BitVec.ofInt 32 ((s.L r).toInt * v.toInt)) ∧
    exec (.absl q r) s = out (BitVec.ofInt 32 v.toInt.natAbs) ∧
    exec (.andl q r) s = out (s.L r &&& v) ∧
    exec (.orl q r) s = out (s.L r ||| v) ∧
    exec (.xorl q r) s = out (s.L r ^^^ v) ∧
    exec (.notl q r) s = out (0xffffffff - v))

/-- Tier 1. The instructions whose operand is narrower than their destination complete wherever the operand is readable,
with these results and no other change: a move keeps the destination's higher bytes, a conversion fills them with zeros
or with the sign, an addition, subtraction or multiplication extends the word first (40_data_movement.md R145 to R147,
41_add_sub_mul.md R185, R186, R192, R193, R205, R206, 44_convert_compare.md R302 to R307). -/
def Obligations.NarrowOperandResults : Prop :=
  (∀ (q : QOp 16) (r : Reg) (s : State) (v : Word), q.word s = .ok v →
    let out := longResult s (2 + q.extraBytes) r
    let low : Word := BitVec.ofNat 16 (s.L r).toNat
    exec (.movwl q r) s = out (BitVec.ofNat 32 ((s.L r).toNat / 65536 * 65536 + v.toNat)) ∧
    exec (.adduwl q r) s = out (BitVec.ofNat 32 ((s.L r).toNat + v.toNat)) ∧
    exec (.addswl q r) s = out (BitVec.ofInt 32 ((s.L r).toInt + v.toInt)) ∧
    exec (.subuwl q r) s = out (BitVec.ofInt 32 ((s.L r).toNat - v.toNat)) ∧
    exec (.subswl q r) s = out (BitVec.ofInt 32 ((s.L r).toInt - v.toInt)) ∧
    exec (.muluwl q r) s = out (BitVec.ofNat 32 (low.toNat * v.toNat)) ∧
    exec (.mulswl q r) s = out (BitVec.ofInt 32 (low.toInt * v.toInt)) ∧
    exec (.cvtwzl q r) s = out (BitVec.ofNat 32 v.toNat) ∧
    exec (.cvtwsl q r) s = out (BitVec.ofInt 32 v.toInt)) ∧
  (∀ (q : QOp 8) (r : Reg) (s : State) (v : Byte),
    (q.byteW s = .ok v →
      exec (.movbw q r) s = wordResult s (2 + q.extraBytes) r (BitVec.ofNat 16 ((s.W r).toNat / 256 * 256 + v.toNat)) ∧
      exec (.cvtbzw q r) s = wordResult s (2 + q.extraBytes) r (BitVec.ofNat 16 v.toNat) ∧
      exec (.cvtbsw q r) s = wordResult s (2 + q.extraBytes) r (BitVec.ofInt 16 v.toInt)) ∧
    (q.byteL s = .ok v →
      exec (.movbl q r) s = longResult s (2 + q.extraBytes) r (BitVec.ofNat 32 ((s.L r).toNat / 256 * 256 + v.toNat)) ∧
      exec (.cvtbzl q r) s = longResult s (2 + q.extraBytes) r (BitVec.ofNat 32 v.toNat) ∧
      exec (.cvtbsl q r) s = longResult s (2 + q.extraBytes) r (BitVec.ofInt 32 v.toInt)))

/-- Tier 2. The shifts and rotates by a byte count complete wherever the count is readable, with the results of the
formulas shl, shr, sar, rol and ror for every count 0 to 255, and no other change (43_shift_logical.md R260 to R266,
R273 to R276). -/
def Obligations.GeneralShiftsFollowTheirFormulas : Prop :=
  ∀ (q : QOp 8) (r : Reg) (s : State) (v : Byte),
    (q.byteW s = .ok v →
      let out := wordResult s (2 + q.extraBytes) r
      let x := (s.W r).toNat
      let c := v.toNat
      exec (.slw q r) s = out (BitVec.ofNat 16 (if c < 16 then x * 2 ^ c else 0)) ∧
      exec (.srlw q r) s = out (BitVec.ofNat 16 (if c < 16 then x / 2 ^ c else 0)) ∧
      exec (.sraw q r) s = out (BitVec.ofInt 16 ((s.W r).toInt / 2 ^ min c 15)) ∧
      exec (.rlw q r) s = out (BitVec.ofNat 16 (x * 2 ^ (c % 16) % 2 ^ 16 + x / 2 ^ (16 - c % 16))) ∧
      exec (.rrw q r) s =
        out (BitVec.ofNat 16 (x * 2 ^ ((16 - c % 16) % 16) % 2 ^ 16 + x / 2 ^ (16 - (16 - c % 16) % 16)))) ∧
    (q.byteL s = .ok v →
      let out := longResult s (2 + q.extraBytes) r
      let x := (s.L r).toNat
      let c := v.toNat
      exec (.sll q r) s = out (BitVec.ofNat 32 (if c < 32 then x * 2 ^ c else 0)) ∧
      exec (.srll q r) s = out (BitVec.ofNat 32 (if c < 32 then x / 2 ^ c else 0)) ∧
      exec (.sral q r) s = out (BitVec.ofInt 32 ((s.L r).toInt / 2 ^ min c 31)) ∧
      exec (.rll q r) s = out (BitVec.ofNat 32 (x * 2 ^ (c % 32) % 2 ^ 32 + x / 2 ^ (32 - c % 32))) ∧
      exec (.rrl q r) s =
        out (BitVec.ofNat 32 (x * 2 ^ ((32 - c % 32) % 32) % 2 ^ 32 + x / 2 ^ (32 - (32 - c % 32) % 32))))

/-- Tier 2. The shifts and rotates by an immediate count complete always, with the results of the formulas shl, shr, sar,
rol and ror for every count 0 to 31, and no other change (43_shift_logical.md R260, R267 to R272, R277 to R280). -/
def Obligations.ImmediateShiftsFollowTheirFormulas : Prop :=
  ∀ (sc : Fin 32) (r : Reg) (s : State),
    let c := sc.val
    let w := wordResult s 2 r
    let l := longResult s 2 r
    let x := (s.W r).toNat
    let y := (s.L r).toNat
    exec (.sliw sc r) s = w (BitVec.ofNat 16 (if c < 16 then x * 2 ^ c else 0)) ∧
    exec (.srliw sc r) s = w (BitVec.ofNat 16 (if c < 16 then x / 2 ^ c else 0)) ∧
    exec (.sraiw sc r) s = w (BitVec.ofInt 16 ((s.W r).toInt / 2 ^ min c 15)) ∧
    exec (.rliw sc r) s = w (BitVec.ofNat 16 (x * 2 ^ (c % 16) % 2 ^ 16 + x / 2 ^ (16 - c % 16))) ∧
    exec (.rriw sc r) s =
      w (BitVec.ofNat 16 (x * 2 ^ ((16 - c % 16) % 16) % 2 ^ 16 + x / 2 ^ (16 - (16 - c % 16) % 16))) ∧
    exec (.slil sc r) s = l (BitVec.ofNat 32 (y * 2 ^ c)) ∧
    exec (.srlil sc r) s = l (BitVec.ofNat 32 (y / 2 ^ c)) ∧
    exec (.srail sc r) s = l (BitVec.ofInt 32 ((s.L r).toInt / 2 ^ c)) ∧
    exec (.rlil sc r) s = l (BitVec.ofNat 32 (y * 2 ^ c % 2 ^ 32 + y / 2 ^ (32 - c))) ∧
    exec (.rril sc r) s =
      l (BitVec.ofNat 32 (y * 2 ^ ((32 - c) % 32) % 2 ^ 32 + y / 2 ^ (32 - (32 - c) % 32)))

/-- Tier 1. The divide and remainder instructions complete where the divisor is not 0 and, for a signed quotient, the
division does not overflow: quotients truncated toward zero, remainders with the sign of the dividend, and the divr
forms write the remainder over a register divisor after the quotient (42_divide_other_arith.md R220 to R236). -/
def Obligations.DivideResults : Prop :=
  (∀ (q : QOp 16) (r : Reg) (s : State) (d : Word), q.word s = .ok d → d ≠ 0 →
    let n := s.W r
    let out := wordResult s (2 + q.extraBytes) r
    let uq : Word := BitVec.ofNat 16 (n.toNat / d.toNat)
    let ur : Word := BitVec.ofNat 16 (n.toNat % d.toNat)
    let sq : Word := BitVec.ofInt 16 (n.toInt.tdiv d.toInt)
    let sr : Word := BitVec.ofInt 16 (n.toInt.tmod d.toInt)
    let fits := ¬ (n = 0x8000 ∧ d = 0xffff)
    exec (.divuw q r) s = out uq ∧ exec (.remuw q r) s = out ur ∧ exec (.remsw q r) s = out sr ∧
    (fits → exec (.divsw q r) s = out sq) ∧
    (∀ k, q = .reg k →
      exec (.divruw q r) s = wordResult { s with w := s.w.set r.val uq } 2 k ur ∧
      (fits → exec (.divrsw q r) s = wordResult { s with w := s.w.set r.val sq } 2 k sr)) ∧
    ((∀ k, q ≠ .reg k) → exec (.divruw q r) s = out uq ∧ (fits → exec (.divrsw q r) s = out sq))) ∧
  (∀ (q : QOp 32) (r : Reg) (s : State) (d : Long), q.long s = .ok d → d ≠ 0 →
    let n := s.L r
    let out := longResult s (2 + q.extraBytes) r
    let uq : Long := BitVec.ofNat 32 (n.toNat / d.toNat)
    let ur : Long := BitVec.ofNat 32 (n.toNat % d.toNat)
    let sq : Long := BitVec.ofInt 32 (n.toInt.tdiv d.toInt)
    let sr : Long := BitVec.ofInt 32 (n.toInt.tmod d.toInt)
    let fits := ¬ (n = 0x80000000 ∧ d = 0xffffffff)
    exec (.divul q r) s = out uq ∧ exec (.remul q r) s = out ur ∧ exec (.remsl q r) s = out sr ∧
    (fits → exec (.divsl q r) s = out sq) ∧
    (∀ k, q = .reg k →
      exec (.divrul q r) s = longResult { s with l := s.l.set r.val uq } 2 k ur ∧
      (fits → exec (.divrsl q r) s = longResult { s with l := s.l.set r.val sq } 2 k sr)) ∧
    ((∀ k, q ≠ .reg k) → exec (.divrul q r) s = out uq ∧ (fits → exec (.divrsl q r) s = out sq))) ∧
  (∀ (q : QOp 16) (r : Reg) (s : State) (d : Word), q.word s = .ok d → d ≠ 0 →
    let n := s.L r
    let out := longResult s (2 + q.extraBytes) r
    let uq : Long := BitVec.ofNat 32 (n.toNat / d.toNat)
    let sq : Long := BitVec.ofInt 32 (n.toInt.tdiv d.toInt)
    let fits := ¬ (n = 0x80000000 ∧ d = 0xffff)
    (∀ k, q = .reg k →
      exec (.divrulw q r) s =
        wordResult { s with l := s.l.set r.val uq } 2 k (BitVec.ofNat 16 (n.toNat % d.toNat)) ∧
      (fits → exec (.divrslw q r) s =
        wordResult { s with l := s.l.set r.val sq } 2 k (BitVec.ofInt 16 (n.toInt.tmod d.toInt)))) ∧
    ((∀ k, q ≠ .reg k) → exec (.divrulw q r) s = out uq ∧ (fits → exec (.divrslw q r) s = out sq)))

/-- Tier 2. The quotient and the remainder that a divr instruction leaves in two different registers are the unique pair of
42_divide_other_arith.md R220: n = d * q + r with 0 <= r < d unsigned, and with |r| < |d| and r of the sign of n signed. -/
def Obligations.QuotientAndRemainderSatisfyTheDivisionLaw : Prop :=
  ∀ (k r : Reg) (s t : State),
    (k ≠ r → s.W k ≠ 0 → exec (.divruw (.reg k) r) s = .next t →
      (s.W r).toNat = (s.W k).toNat * (t.W r).toNat + (t.W k).toNat ∧ (t.W k).toNat < (s.W k).toNat) ∧
    (k ≠ r → s.L k ≠ 0 → exec (.divrul (.reg k) r) s = .next t →
      (s.L r).toNat = (s.L k).toNat * (t.L r).toNat + (t.L k).toNat ∧ (t.L k).toNat < (s.L k).toNat) ∧
    (s.W k ≠ 0 → exec (.divrulw (.reg k) r) s = .next t →
      (s.L r).toNat = (s.W k).toNat * (t.L r).toNat + (t.W k).toNat ∧ (t.W k).toNat < (s.W k).toNat) ∧
    (k ≠ r → s.W k ≠ 0 → ¬ (s.W r = 0x8000 ∧ s.W k = 0xffff) → exec (.divrsw (.reg k) r) s = .next t →
      (s.W r).toInt = (s.W k).toInt * (t.W r).toInt + (t.W k).toInt ∧
      (t.W k).toInt.natAbs < (s.W k).toInt.natAbs ∧ 0 ≤ (t.W k).toInt * (s.W r).toInt) ∧
    (k ≠ r → s.L k ≠ 0 → ¬ (s.L r = 0x80000000 ∧ s.L k = 0xffffffff) → exec (.divrsl (.reg k) r) s = .next t →
      (s.L r).toInt = (s.L k).toInt * (t.L r).toInt + (t.L k).toInt ∧
      (t.L k).toInt.natAbs < (s.L k).toInt.natAbs ∧ 0 ≤ (t.L k).toInt * (s.L r).toInt) ∧
    (s.W k ≠ 0 → ¬ (s.L r = 0x80000000 ∧ s.W k = 0xffff) → exec (.divrslw (.reg k) r) s = .next t →
      (s.L r).toInt = (s.W k).toInt * (t.L r).toInt + (t.W k).toInt ∧
      (t.W k).toInt.natAbs < (s.W k).toInt.natAbs ∧ 0 ≤ (t.W k).toInt * (s.L r).toInt)

/-- Tier 1. Every integer divide, remainder and divr instruction whose divisor is 0 takes DivideByZero; the five signed
instructions that write a quotient take DivideOverflow for the most negative dividend over -1, where remsw and remsl give
0; nothing else changes (60_exceptions.md R397, R398, 42_divide_other_arith.md R222). -/
def Obligations.DivisionTraps : Prop :=
  (∀ (q : QOp 16) (r : Reg) (s : State), q.word s = .ok 0 →
    let out := trap s (.divideByZero s.pc)
    exec (.divuw q r) s = out ∧ exec (.divsw q r) s = out ∧ exec (.remuw q r) s = out ∧ exec (.remsw q r) s = out ∧
    exec (.divruw q r) s = out ∧ exec (.divrsw q r) s = out ∧ exec (.divrulw q r) s = out ∧
    exec (.divrslw q r) s = out) ∧
  (∀ (q : QOp 32) (r : Reg) (s : State), q.long s = .ok 0 →
    let out := trap s (.divideByZero s.pc)
    exec (.divul q r) s = out ∧ exec (.divsl q r) s = out ∧ exec (.remul q r) s = out ∧ exec (.remsl q r) s = out ∧
    exec (.divrul q r) s = out ∧ exec (.divrsl q r) s = out) ∧
  (∀ (q : QOp 16) (r : Reg) (s : State), q.word s = .ok 0xffff →
    (s.W r = 0x8000 →
      exec (.divsw q r) s = trap s (.divideOverflow s.pc) ∧ exec (.divrsw q r) s = trap s (.divideOverflow s.pc) ∧
      exec (.remsw q r) s = wordResult s (2 + q.extraBytes) r 0) ∧
    (s.L r = 0x80000000 → exec (.divrslw q r) s = trap s (.divideOverflow s.pc))) ∧
  (∀ (q : QOp 32) (r : Reg) (s : State), q.long s = .ok 0xffffffff → s.L r = 0x80000000 →
    exec (.divsl q r) s = trap s (.divideOverflow s.pc) ∧ exec (.divrsl q r) s = trap s (.divideOverflow s.pc) ∧
    exec (.remsl q r) s = longResult s (2 + q.extraBytes) r 0)

/-- Tier 1. addcl and subcl, once fetched and decoded, take NotAvailable in every state, change nothing else and read no
operand, so no other fault precedes it but those of the fetch (60_exceptions.md R399). -/
def Obligations.CarryInstructionsAreNotAvailable : Prop :=
  ∀ (q : QOp 32) (r : Reg) (s : State),
    exec (.addcl q r) s = trap s (.notAvailable s.pc) ∧ exec (.subcl q r) s = trap s (.notAvailable s.pc) ∧
    (s.status = .running → s.fetch = .ok (.addcl q r) ∨ s.fetch = .ok (.subcl q r) →
      step s = trap s (.notAvailable s.pc)) ∧
    (∀ x, s.status = .running → s.fetch = .error x → step s = trap s x)

/-! ## Compares, conditions and flags -/

/-- Tier 2. A fixed-point compare completes wherever its operand is readable, writes one of the five patterns 4, 24, 18,
9, 3 by the unsigned and the signed order of the register and the operand, and changes nothing else
(44_convert_compare.md R320 to R324). -/
def Obligations.IntegerComparePatterns : Prop :=
  let pattern (a b : Nat) (x y : Int) : Word :=
    if a = b then 4 else if a < b then (if x < y then 24 else 18) else (if x < y then 9 else 3)
  ∀ (r : Reg) (s : State),
    (∀ (q : QOp 16) (v : Word), q.word s = .ok v → exec (.cmpw q r) s =
      flagsResult s (2 + q.extraBytes) (pattern (s.W r).toNat v.toNat (s.W r).toInt v.toInt)) ∧
    (∀ (q : QOp 32) (v : Long), q.long s = .ok v → exec (.cmpl q r) s =
      flagsResult s (2 + q.extraBytes) (pattern (s.L r).toNat v.toNat (s.L r).toInt v.toInt)) ∧
    (∀ (q : QOp 8) (v : Byte), q.byteW s = .ok v →
      let b : Byte := BitVec.ofNat 8 (s.W r).toNat
      exec (.cmpwb q r) s = flagsResult s (2 + q.extraBytes) (pattern b.toNat v.toNat b.toInt v.toInt)) ∧
    (∀ (q : QOp 8) (v : Byte), q.byteL s = .ok v →
      let b : Byte := BitVec.ofNat 8 (s.L r).toNat
      exec (.cmplb q r) s = flagsResult s (2 + q.extraBytes) (pattern b.toNat v.toNat b.toInt v.toInt))

/-- Tier 2. After a long compare the eleven conditions say how the register stands to the operand: unsigned, signed and
equal (30_encoding.md R121, 44_convert_compare.md R320). -/
def Obligations.ConditionsAfterACompare : Prop :=
  ∀ (q : QOp 32) (r : Reg) (s t : State) (v : Long), q.long s = .ok v → exec (.cmpl q r) s = .next t →
    let a := (s.L r).toNat
    let b := v.toNat
    let x := (s.L r).toInt
    let y := v.toInt
    (condHolds t.flags .unc = true) ∧
    (condHolds t.flags .leu = true ↔ a ≤ b) ∧ (condHolds t.flags .lu = true ↔ a < b) ∧
    (condHolds t.flags .l = true ↔ x < y) ∧ (condHolds t.flags .le = true ↔ x ≤ y) ∧
    (condHolds t.flags .e = true ↔ a = b) ∧ (condHolds t.flags .ne = true ↔ a ≠ b) ∧
    (condHolds t.flags .ge = true ↔ y ≤ x) ∧ (condHolds t.flags .g = true ↔ y < x) ∧
    (condHolds t.flags .gu = true ↔ b < a) ∧ (condHolds t.flags .geu = true ↔ b ≤ a)

/-- Tier 1. A floating compare completes wherever its operand is readable and sets exactly one of LF, EF and GF by the order
of the two values; with a NaN it writes one of the three patterns, whichever (a free value, log 11), and changes
nothing else (44_convert_compare.md R320, R325, R326). -/
def Obligations.FloatComparesSetOneFlag : Prop :=
  ∀ (r : Reg) (s : State),
    (∀ (q : QOp 32) (v : Long), q.float s = .ok v →
      (single.cmp (s.F r).toNat v.toNat = some .lt → exec (.cmpf q r) s = flagsResult s (2 + q.extraBytes) 8) ∧
      (single.cmp (s.F r).toNat v.toNat = some .eq → exec (.cmpf q r) s = flagsResult s (2 + q.extraBytes) 4) ∧
      (single.cmp (s.F r).toNat v.toNat = some .gt → exec (.cmpf q r) s = flagsResult s (2 + q.extraBytes) 2) ∧
      (single.cmp (s.F r).toNat v.toNat = none → ∃ x, (x = 2 ∨ x = 4 ∨ x = 8) ∧
        exec (.cmpf q r) s = flagsResult { s with freeCount := s.freeCount + 1 } (2 + q.extraBytes) x)) ∧
    (∀ (q : QOp 64) (v : Quad), q.double s = .ok v →
      (double.cmp (s.D r).toNat v.toNat = some .lt → exec (.cmpd q r) s = flagsResult s (2 + q.extraBytes) 8) ∧
      (double.cmp (s.D r).toNat v.toNat = some .eq → exec (.cmpd q r) s = flagsResult s (2 + q.extraBytes) 4) ∧
      (double.cmp (s.D r).toNat v.toNat = some .gt → exec (.cmpd q r) s = flagsResult s (2 + q.extraBytes) 2) ∧
      (double.cmp (s.D r).toNat v.toNat = none → ∃ x, (x = 2 ∨ x = 4 ∨ x = 8) ∧
        exec (.cmpd q r) s = flagsResult { s with freeCount := s.freeCount + 1 } (2 + q.extraBytes) x))

/-- Tier 2. Patterns without sign up to infinity compare as the numbers they are written as, and a set sign bit reverses the
order; every negative number is less than every pattern without sign, but that +0 equals -0; and two patterns have no
order exactly where one of them is a NaN, its exponent all ones and its fraction not zero (44_convert_compare.md R300
items 1 and 5, R320). -/
def Obligations.FloatOrderIsThePatternOrder : Prop :=
  ∀ fmt, fmt = single ∨ fmt = double →
    (∀ a b, fmt.cmp a b = none ↔ fmt.infBits < a % fmt.signWeight ∨ fmt.infBits < b % fmt.signWeight) ∧
    ∀ a b, a ≤ fmt.infBits → b ≤ fmt.infBits →
      fmt.cmp a b = some (compare a b) ∧
      fmt.cmp (fmt.signWeight + a) (fmt.signWeight + b) = some (compare b a) ∧
      fmt.cmp (fmt.signWeight + a) b = some (if a = 0 ∧ b = 0 then .eq else .lt) ∧
      fmt.cmp a (fmt.signWeight + b) = some (if a = 0 ∧ b = 0 then .eq else .gt)

/-- Tier 1. movflags loads the five flag bits and clears the others, stoflags stores flags, the set instructions store 1
or 0 by their condition, each into a register; leal loads an effective address without reading memory
(40_data_movement.md R158, R160 to R165). -/
def Obligations.FlagsSetAndAddressResults : Prop :=
  ∀ (s : State) (k r : Reg) (c : Cond),
    (∀ (q : QOp 16) (v : Word), q.word s = .ok v →
      exec (.movflags q) s = flagsResult s (2 + q.extraBytes) (BitVec.ofNat 16 (v.toNat % 32))) ∧
    exec (.stoflags (.reg k)) s = wordResult s 2 k s.flags ∧
    exec (.set0w (.reg k) c) s = wordResult s 2 k (if condHolds s.flags c then 1 else 0) ∧
    exec (.set1w (.reg k) c) s = wordResult s 2 k (if condHolds s.flags c then 1 else 0) ∧
    exec (.set0l (.reg k) c) s = longResult s 2 k (if condHolds s.flags c then 1 else 0) ∧
    exec (.set1l (.reg k) c) s = longResult s 2 k (if condHolds s.flags c then 1 else 0) ∧
    (∀ (q : QOp 32) (a : Long), q.kind longImms s = .mem a →
      exec (.leal q r) s = longResult s (2 + q.extraBytes) r a) ∧
    (∀ (q : QOp 32) (v : Long), (∀ a, q.kind longImms s ≠ .mem a) → q.long s = .ok v →
      exec (.leal q r) s = longResult s (2 + q.extraBytes) r v)

/-! ## Floating point -/

/-- Tier 2. The floating moves and sign operations complete wherever their operand is readable: moves copy the pattern,
negates flip the sign bit alone, absolute values clear it exactly on the negative numbers, infinity included, and
copy -0 and every NaN (40_data_movement.md R143, R144, 41_add_sub_mul.md R198, R199, 42_divide_other_arith.md R239). -/
def Obligations.FloatMovesAndSigns : Prop :=
  (∀ (q : QOp 32) (r : Reg) (s : State) (v : Long), q.float s = .ok v →
    let out := floatResult s (2 + q.extraBytes) r
    exec (.movf q r) s = out v ∧
    exec (.negf q r) s = out (v ^^^ 0x80000000) ∧
    exec (.absf q r) s = out (if 0x80000000 < v.toNat ∧ v.toNat ≤ 0xff800000 then v &&& 0x7fffffff else v)) ∧
  (∀ (q : QOp 64) (r : Reg) (s : State) (v : Quad), q.double s = .ok v →
    let out := doubleResult s (2 + q.extraBytes) r
    exec (.movd q r) s = out v ∧
    exec (.negd q r) s = out (v ^^^ 0x8000000000000000) ∧
    exec (.absd q r) s =
      out (if 0x8000000000000000 < v.toNat ∧ v.toNat ≤ 0xfff0000000000000 then v &&& 0x7fffffffffffffff else v))

/-- Tier 1. The floating arithmetic instructions and the conversions between the formats complete wherever their operand
is readable: the rounded result of the operation, which FloatOperationsRoundTheExactResult and SquareRootsAreRounded tie
to the exact one, or, where the operation is invalid, some NaN (a free value, log 9), and no other change; none faults
(41_add_sub_mul.md R187, R188, R194, R195, R207, R208, 42_divide_other_arith.md R237, R238, R244, R245,
44_convert_compare.md R316, R317). -/
def Obligations.FloatArithmeticCompletes : Prop :=
  (∀ (q : QOp 32) (r : Reg) (s : State) (v : Long), q.float s = .ok v →
    let out := floatOutcome s (2 + q.extraBytes) r
    out (single.add (s.F r).toNat v.toNat) (exec (.addf q r) s) ∧
    out (single.sub (s.F r).toNat v.toNat) (exec (.subf q r) s) ∧
    out (single.mul (s.F r).toNat v.toNat) (exec (.mulf q r) s) ∧
    out (single.div (s.F r).toNat v.toNat) (exec (.divf q r) s) ∧
    out (single.sqrt v.toNat) (exec (.sqrtf q r) s) ∧
    doubleOutcome s (2 + q.extraBytes) r (double.convert single v.toNat) (exec (.cvtfd q r) s)) ∧
  (∀ (q : QOp 64) (r : Reg) (s : State) (v : Quad), q.double s = .ok v →
    let out := doubleOutcome s (2 + q.extraBytes) r
    out (double.add (s.D r).toNat v.toNat) (exec (.addd q r) s) ∧
    out (double.sub (s.D r).toNat v.toNat) (exec (.subd q r) s) ∧
    out (double.mul (s.D r).toNat v.toNat) (exec (.muld q r) s) ∧
    out (double.div (s.D r).toNat v.toNat) (exec (.divd q r) s) ∧
    out (double.sqrt v.toNat) (exec (.sqrtd q r) s) ∧
    floatOutcome s (2 + q.extraBytes) r (single.convert double v.toNat) (exec (.cvtdf q r) s))

/-- Tier 2. Rounding is to nearest with ties to even: among all finite patterns of the format the one chosen is nearest to
num / den units, an equally near one is chosen only if its last bit is 0; and infinity is chosen exactly from half a
unit in the last place above the largest finite number on (44_convert_compare.md R300 items 2 and 3). -/
def Obligations.RoundingIsToNearestEven : Prop :=
  ∀ fmt, fmt = single ∨ fmt = double → ∀ num den, 0 < den →
    let b := fmt.round num den
    let err (c : Nat) : Nat := ((fmt.magnitude c * den : Int) - num).natAbs
    (b < fmt.infBits → ∀ c < fmt.infBits, c ≠ b → err b ≤ err c ∧ (err b = err c → b % 2 = 0)) ∧
    (b = fmt.infBits ↔ (fmt.magnitude (fmt.infBits - 1) + 2 ^ (2 ^ fmt.expBits - 4)) * den ≤ num) ∧
    b ≤ fmt.infBits

/-- Tier 2. The finite results of floating arithmetic, in both formats, are the exact sum, difference, product, quotient,
integer or converted value, rounded once to nearest with ties to even, an overflow to infinity; the exact numbers are those
of the IEEE 754 fields, which the magnitudes count in units of the least denormal (00_scope.md R12, 41_add_sub_mul.md R181,
44_convert_compare.md R300 items 2 and 3). The sign of a result that is not zero is the exact one, and that of an exact zero sum
of opposite signs is +; that a zero product or quotient has the product of the signs and a sum of zeros of one
sign keeps it is the model's choice, the IEEE 754 default (log 13). -/
def Obligations.FloatOperationsRoundTheExactResult : Prop :=
  ∀ fmt, fmt = single ∨ fmt = double →
    (∀ (neg : Bool) (x : Nat), x < fmt.infBits →
      fmt.unpack (fmt.pack neg x) = .fin neg (fmt.magnitude x) ∧
      (fmt.magnitude x : ℚ) = fmt.ieeeValue x * fmt.one) ∧
    (∀ (a b : Bool) (x y : Nat), x < fmt.infBits → y < fmt.infBits →
      let u := signedValue a (fmt.ieeeValue x)
      let v := signedValue b (fmt.ieeeValue y)
      let sumSign (c : Bool) (q : ℚ) : Bool := if q = 0 then a && c else decide (q < 0)
      (∃ m, fmt.add (fmt.pack a x) (fmt.pack b y) = some (fmt.pack (sumSign b (u + v)) m) ∧ fmt.nearest 1 |u + v| m) ∧
      (∃ m, fmt.sub (fmt.pack a x) (fmt.pack b y) = some (fmt.pack (sumSign (!b) (u - v)) m) ∧ fmt.nearest 1 |u - v| m) ∧
      (∃ m, fmt.mul (fmt.pack a x) (fmt.pack b y) = some (fmt.pack (a ^^ b) m) ∧ fmt.nearest 1 |u * v| m) ∧
      (y ≠ 0 → ∃ m, fmt.div (fmt.pack a x) (fmt.pack b y) = some (fmt.pack (a ^^ b) m) ∧ fmt.nearest 1 |u / v| m)) ∧
    (∀ i : Int, ∃ m, fmt.ofInt i = fmt.pack (decide (i < 0)) m ∧ fmt.nearest 1 |(i : ℚ)| m) ∧
    (∀ src, src = single ∨ src = double → ∀ (neg : Bool) (x : Nat), x < src.infBits →
      ∃ m, fmt.convert src (src.pack neg x) = some (fmt.pack neg m) ∧ fmt.nearest 1 (src.ieeeValue x) m)

/-- Tier 2. isqrt is the integer square root, and the square root of a pattern that is not negative, in both formats, is the
exact root rounded once to nearest with ties to even (42_divide_other_arith.md R244, R245, 44_convert_compare.md R300 item 2). -/
def Obligations.SquareRootsAreRounded : Prop :=
  (∀ n, isqrt n * isqrt n ≤ n ∧ n < (isqrt n + 1) * (isqrt n + 1)) ∧
  ∀ fmt, fmt = single ∨ fmt = double → ∀ x < fmt.infBits,
    ∃ m, fmt.sqrt (fmt.pack false x) = some (fmt.pack false m) ∧ fmt.nearest 2 (fmt.ieeeValue x) m

/-- Tier 2. The conversions of a long to float and to double complete wherever the operand is readable, with no other
change. To double they are exact, so the value read back is the integer; and the conversion of a float to double keeps
the sign and the magnitude of a finite value, in the smaller units of the double format, and the sign of an infinity
(44_convert_compare.md R308 to R311, R317). -/
def Obligations.ConversionsToDoubleAreExact : Prop :=
  (∀ (q : QOp 32) (r : Reg) (s : State) (v : Long), q.long s = .ok v →
    exec (.cvtulf q r) s = floatResult s (2 + q.extraBytes) r (BitVec.ofNat 32 (single.ofInt v.toNat)) ∧
    exec (.cvtslf q r) s = floatResult s (2 + q.extraBytes) r (BitVec.ofNat 32 (single.ofInt v.toInt)) ∧
    (∃ x : Quad, exec (.cvtuld q r) s = doubleResult s (2 + q.extraBytes) r x ∧
      double.unpack x.toNat = .fin false (v.toNat * double.one)) ∧
    (∃ x : Quad, exec (.cvtsld q r) s = doubleResult s (2 + q.extraBytes) r x ∧
      double.unpack x.toNat = .fin (decide (v.toInt < 0)) (v.toInt.natAbs * double.one))) ∧
  (∀ x : Long,
    (single.unpack x.toNat = .nan → double.convert single x.toNat = none) ∧
    (∀ neg, single.unpack x.toNat = .inf neg →
      ∃ y : Quad, double.convert single x.toNat = some y.toNat ∧ double.unpack y.toNat = .inf neg) ∧
    (∀ neg m, single.unpack x.toNat = .fin neg m →
      ∃ y : Quad, double.convert single x.toNat = some y.toNat ∧ double.unpack y.toNat = .fin neg (m * 2 ^ 925)))

/-- Tier 2. The truncating conversions complete wherever their operand is readable: a finite value whose integer part is in
the destination's range gives it, every other value some long (a free value, log 10), and no other change; the
integer part is the value with its fraction dropped (44_convert_compare.md R301, R312 to R315). -/
def Obligations.TruncatingConversions : Prop :=
  let inRange (s : State) (len : Nat) (r : Reg) (lo hi : Int) (v : Option Int) (o : Out) : Prop :=
    (∀ i, v = some i → lo ≤ i → i ≤ hi → o = longResult s len r (BitVec.ofInt 32 i)) ∧
    ((∀ i, v = some i → ¬ (lo ≤ i ∧ i ≤ hi)) →
      ∃ x, o = longResult { s with freeCount := s.freeCount + 1 } len r x)
  (∀ (q : QOp 32) (r : Reg) (s : State) (v : Long), q.float s = .ok v →
    inRange s (2 + q.extraBytes) r 0 4294967295 (single.trunc v.toNat) (exec (.cvttful q r) s) ∧
    inRange s (2 + q.extraBytes) r (-2147483648) 2147483647 (single.trunc v.toNat) (exec (.cvttfsl q r) s)) ∧
  (∀ (q : QOp 64) (r : Reg) (s : State) (v : Quad), q.double s = .ok v →
    inRange s (2 + q.extraBytes) r 0 4294967295 (double.trunc v.toNat) (exec (.cvttdul q r) s) ∧
    inRange s (2 + q.extraBytes) r (-2147483648) 2147483647 (double.trunc v.toNat) (exec (.cvttdsl q r) s)) ∧
  (∀ (fmt : FloatFormat) (a : Nat) (i : Int), fmt.trunc a = some i →
    ∃ neg m, fmt.unpack a = .fin neg m ∧ i.natAbs * fmt.one ≤ m ∧ m < (i.natAbs + 1) * fmt.one ∧
      (neg = true → i ≤ 0) ∧ (neg = false → 0 ≤ i)) ∧
  (∀ (fmt : FloatFormat) (a : Nat), fmt.trunc a = none ↔ ∀ neg m, fmt.unpack a ≠ .fin neg m)

/-- Tier 2. The special cases of floating arithmetic, in both formats, for operands of either sign. x - x is +0 for finite x;
a finite nonzero over a zero is an infinity of the product of the signs; infinities of one sign add to that infinity; the root of a
zero is that zero and the root of +infinity +infinity. Infinities of opposite signs in a sum, 0 times infinity, 0 / 0,
infinity / infinity and the root of a negative number, -infinity included, are invalid. The NaNs are the patterns with the
exponent all ones and a fraction that is not zero, and no operation with one as an operand has a value
(44_convert_compare.md R300 items 1, 4 and 5). The model's choices are the IEEE 754 defaults that R300 does not spell out (log 13):
a sum of an infinity and a finite value is that infinity; a product of an infinity with anything but a zero or a NaN, and
a quotient of an infinity by a finite value, are infinities, and a quotient of a finite value by an infinity is a
zero, all of the product of the signs; a converted infinity is the infinity of its sign. -/
def Obligations.FloatSpecialCases : Prop :=
  ∀ fmt, fmt = single ∨ fmt = double →
    let inf (c : Bool) : Nat := fmt.pack c fmt.infBits
    let zero (c : Bool) : Nat := fmt.pack c 0
    (∀ (a b : Bool) (x : Nat), x < fmt.infBits →
      let fin (c : Bool) : Nat := fmt.pack c x
      fmt.sub (fin a) (fin a) = some 0 ∧ fmt.add (fin a) (fin (!a)) = some 0 ∧
      (x ≠ 0 → fmt.div (fin a) (zero b) = some (inf (a ^^ b))) ∧
      (x ≠ 0 → fmt.sqrt (fin true) = none) ∧
      fmt.add (inf a) (fin b) = some (inf a) ∧ fmt.add (fin b) (inf a) = some (inf a) ∧
      fmt.sub (inf a) (fin b) = some (inf a) ∧ fmt.sub (fin b) (inf a) = some (inf (!a)) ∧
      (x ≠ 0 → fmt.mul (inf a) (fin b) = some (inf (a ^^ b)) ∧ fmt.mul (fin a) (inf b) = some (inf (a ^^ b))) ∧
      fmt.div (inf a) (fin b) = some (inf (a ^^ b)) ∧ fmt.div (fin a) (inf b) = some (zero (a ^^ b))) ∧
    (∀ a b : Bool,
      fmt.add (inf a) (inf b) = (if a = b then some (inf a) else none) ∧
      fmt.sub (inf a) (inf b) = (if a = b then none else some (inf a)) ∧
      fmt.mul (inf a) (inf b) = some (inf (a ^^ b)) ∧ fmt.div (inf a) (inf b) = none ∧
      fmt.mul (zero a) (inf b) = none ∧ fmt.mul (inf a) (zero b) = none ∧ fmt.div (zero a) (zero b) = none ∧
      fmt.sqrt (zero a) = some (zero a) ∧ fmt.sqrt (inf a) = (if a then none else some (inf a))) ∧
    (∀ n, fmt.unpack n = .nan ↔ fmt.infBits < n % fmt.signWeight) ∧
    (∀ n z, fmt.unpack n = .nan →
      fmt.add n z = none ∧ fmt.add z n = none ∧ fmt.sub n z = none ∧ fmt.sub z n = none ∧
      fmt.mul n z = none ∧ fmt.mul z n = none ∧ fmt.div n z = none ∧ fmt.div z n = none ∧ fmt.sqrt n = none) ∧
    (∀ dst, dst = single ∨ dst = double →
      (∀ n, fmt.unpack n = .nan → dst.convert fmt n = none) ∧
      ∀ a, dst.convert fmt (inf a) = some (dst.pack a dst.infBits))

/-! ## Stores and register groups -/

/-- Tier 2. The store instructions with a memory destination complete where the destination is in memory: exactly the bytes
at the operand's effective address change, to the low bytes of the source, and no other state
(40_data_movement.md R150 to R156, R161 to R165). -/
def Obligations.StoresToMemory : Prop :=
  ∀ (s : State) (r : Reg) (c : Cond) (a : Long), s.mem.wf →
    (∀ q : QOp 16, q.kind wordImms s = .mem a → a.toNat + 2 ≤ s.params.memSize →
      storeResult s (2 + q.extraBytes) a 2 (s.W r).toNat (exec (.stow q r) s) ∧
      storeResult s (2 + q.extraBytes) a 2 (s.L r).toNat (exec (.stolw q r) s) ∧
      storeResult s (2 + q.extraBytes) a 2 s.flags.toNat (exec (.stoflags q) s) ∧
      storeResult s (2 + q.extraBytes) a 2 (condHolds s.flags c).toNat (exec (.set0w q c) s) ∧
      storeResult s (2 + q.extraBytes) a 2 (condHolds s.flags c).toNat (exec (.set1w q c) s)) ∧
    (∀ q : QOp 32, q.kind longImms s = .mem a → a.toNat + 4 ≤ s.params.memSize →
      storeResult s (2 + q.extraBytes) a 4 (s.L r).toNat (exec (.stol q r) s) ∧
      storeResult s (2 + q.extraBytes) a 4 (s.F r).toNat (exec (.stof q r) s) ∧
      storeResult s (2 + q.extraBytes) a 4 (condHolds s.flags c).toNat (exec (.set0l q c) s) ∧
      storeResult s (2 + q.extraBytes) a 4 (condHolds s.flags c).toNat (exec (.set1l q c) s)) ∧
    (∀ q : QOp 64, q.kind doubleImms s = .mem a → a.toNat + 8 ≤ s.params.memSize →
      storeResult s (2 + q.extraBytes) a 8 (s.D r).toNat (exec (.stod q r) s)) ∧
    (∀ q : QOp 8, q.kind byteImms s = .mem a → a.toNat + 1 ≤ s.params.memSize →
      storeResult s (2 + q.extraBytes) a 1 (s.W r).toNat (exec (.stowb q r) s) ∧
      storeResult s (2 + q.extraBytes) a 1 (s.L r).toNat (exec (.stolb q r) s))

/-- Tier 1. The store instructions with a register destination move register to register; a byte store keeps the
destination's higher bytes (40_data_movement.md R150 to R156, R166, 30_encoding.md R103). -/
def Obligations.StoresToRegisters : Prop :=
  ∀ (s : State) (k r : Reg),
    exec (.stow (.reg k) r) s = wordResult s 2 k (s.W r) ∧
    exec (.stol (.reg k) r) s = longResult s 2 k (s.L r) ∧
    exec (.stof (.reg k) r) s = floatResult s 2 k (s.F r) ∧
    exec (.stod (.reg k) r) s = doubleResult s 2 k (s.D r) ∧
    exec (.stowb (.reg k) r) s = wordResult s 2 k (BitVec.ofNat 16 ((s.W k).toNat / 256 * 256 + (s.W r).toNat % 256)) ∧
    exec (.stolb (.reg k) r) s = longResult s 2 k (BitVec.ofNat 32 ((s.L k).toNat / 256 * 256 + (s.L r).toNat % 256)) ∧
    exec (.stolw (.reg k) r) s = wordResult s 2 k (BitVec.ofNat 16 (s.L r).toNat)

/-- Tier 2. gmov and gsto complete for every group that fits and every memory operand in memory: gmov writes what it reads
to the group of r and nothing else, gsto stores the group of r to memory, or to the group of its m-operand, and
nothing else (40_data_movement.md R148, R149, R157). -/
def Obligations.GroupMovesComplete : Prop :=
  ∀ (n : SizeCode) (g h : GReg) (s : State), g.groupFits n = true → h.groupFits n = true →
    (∃ v t, h.groupRead n s = .ok v ∧ g.groupWrite n v s = .ok t ∧
      exec (.gmov n g (.mreg h)) s = .next { t with pc := s.pc + 4 } ∧
      exec (.gsto n h (.mreg g)) s = .next { t with pc := s.pc + 4 }) ∧
    (∀ (m : MOp) (a : Long), m = .mmema a ∨ (∃ x, m = .x x ∧ x.ea s = a) → a.toNat + n.bytes ≤ s.params.memSize →
      s.mem.wf →
      (∃ t, g.groupWrite n (s.mem.readLE a.toNat n.bytes) s = .ok t ∧
        exec (.gmov n g m) s = .next { t with pc := s.pc + BitVec.ofNat 32 (2 + m.extraBytes) }) ∧
      (∃ v, g.groupRead n s = .ok v ∧ storeResult s (2 + m.extraBytes) a n.bytes v (exec (.gsto n g m) s)))

/-- Tier 2. A value written to a register group is read back from it: successive pieces of register size, the least significant
in the first register, or, where the value is narrower than the register, its low bytes. The registers outside the
group, and the high bytes of a register wider than the value, keep what they held, and nothing but registers changes
(40_data_movement.md R148). -/
def Obligations.GroupWriteIsReadBack : Prop :=
  ∀ (n : SizeCode) (g : GReg) (v : Nat) (s : State), g.groupFits n = true →
    ∃ t, g.groupWrite n v s = .ok t ∧
      g.groupRead n t = .ok (v % 256 ^ n.bytes) ∧
      (∀ h : GReg, h.file ≠ g.file ∨ h.idx.val < g.idx.val ∨
        g.idx.val + (n.bytes + g.file.size - 1) / g.file.size ≤ h.idx.val → t.G h = s.G h) ∧
      (g.file.size ≤ n.bytes → ∀ h : GReg, h.file = g.file → g.idx.val ≤ h.idx.val →
        h.idx.val < g.idx.val + n.bytes / g.file.size →
        t.G h = v / 256 ^ (g.file.size * (h.idx.val - g.idx.val)) % 256 ^ g.file.size) ∧
      (n.bytes < g.file.size → t.G g % 256 ^ n.bytes = v % 256 ^ n.bytes ∧
        t.G g / 256 ^ n.bytes = s.G g / 256 ^ n.bytes) ∧
      t = { s with w := t.w, l := t.l, f := t.f, d := t.d }

/-! ## Control flow -/

/-- Tier 1. jump goes to the target of its j-operand where its condition holds, with npc the address after the
instruction, and to npc otherwise; jmemai and sprmi read their target from memory, or take MemoryBounds
(45_control_stack_misc.md R342, 30_encoding.md R123 to R126). -/
def Obligations.JumpResults : Prop :=
  ∀ (s : State) (c : Cond) (k : Reg) (off : BitVec 16) (a : Long),
    (condHolds s.flags c = false → ∀ j, exec (.jump c j) s = pcResult s (s.pc + BitVec.ofNat 32 (2 + j.extraBytes))) ∧
    (condHolds s.flags c = true →
      let x := s.sp - BitVec.ofNat 32 (2 * off.toNat)
      exec (.jump c (.jregi k)) s = pcResult s (s.L k) ∧
      exec (.jump c (.pcrp off)) s = pcResult s (s.pc + 4 + BitVec.ofNat 32 (2 * off.toNat)) ∧
      exec (.jump c (.pcrm off)) s = pcResult s (s.pc + 4 - BitVec.ofNat 32 (2 * off.toNat)) ∧
      exec (.jump c (.jmema a)) s = pcResult s a ∧
      (a.toNat + 4 ≤ s.params.memSize →
        exec (.jump c (.jmemai a)) s = pcResult s (BitVec.ofNat 32 (s.mem.readLE a.toNat 4))) ∧
      (s.params.memSize < a.toNat + 4 → exec (.jump c (.jmemai a)) s = trap s (.memoryBounds a.toNat)) ∧
      (x.toNat + 4 ≤ s.params.memSize →
        exec (.jump c (.sprmi off)) s = pcResult s (BitVec.ofNat 32 (s.mem.readLE x.toNat 4))) ∧
      (s.params.memSize < x.toNat + 4 → exec (.jump c (.sprmi off)) s = trap s (.memoryBounds x.toNat)))

/-- Tier 1. jumpf and jumpb go to npc plus and minus twice their 24-bit field, modulo 2^32, with npc the address of the
instruction plus 4, in every state, and change nothing else; their encodings are four bytes
(45_control_stack_misc.md R343, R344). -/
def Obligations.JumpForwardAndBackward : Prop :=
  (∀ (a b c : Byte) (rest : List Byte),
    decode defaultParams (0x3a :: a :: b :: c :: rest) = .ok (.jumpf (c ++ b ++ a)) ∧
    decode defaultParams (0x39 :: a :: b :: c :: rest) = .ok (.jumpb (c ++ b ++ a))) ∧
  ∀ (s : State) (off : BitVec 24),
    exec (.jumpf off) s = pcResult s (BitVec.ofNat 32 (s.pc.toNat + 4 + 2 * off.toNat)) ∧
    exec (.jumpb off) s = pcResult s (BitVec.ofInt 32 (s.pc.toNat + 4 - 2 * off.toNat))

/-- Tier 2. A call whose condition holds pushes npc and goes where a jump with its operand goes, the target found with the old
sp; a call whose condition does not hold goes on; callf and callb do the same with their relative targets; where the
push is out of bounds they take MemoryBounds (45_control_stack_misc.md R345 to R347). -/
def Obligations.CallResults : Prop :=
  ∀ (s : State), s.mem.wf →
    let top := s.sp - 4
    (∀ c j, condHolds s.flags c = false →
      exec (.call c j) s = pcResult s (s.pc + BitVec.ofNat 32 (2 + j.extraBytes))) ∧
    (∀ c j t, condHolds s.flags c = true → j.target (s.pc + BitVec.ofNat 32 (2 + j.extraBytes)) s = .ok t →
      top.toNat + 4 ≤ s.params.memSize → exec (.jump c j) s = pcResult s t ∧
      pushResult s 4 (s.pc + BitVec.ofNat 32 (2 + j.extraBytes)).toNat t (exec (.call c j) s)) ∧
    (∀ c j x, condHolds s.flags c = true → j.target (s.pc + BitVec.ofNat 32 (2 + j.extraBytes)) s = .error x →
      exec (.jump c j) s = trap s x ∧ exec (.call c j) s = trap s x) ∧
    (∀ off : BitVec 24, top.toNat + 4 ≤ s.params.memSize →
      pushResult s 4 (s.pc + 4).toNat (s.pc + 4 + BitVec.ofNat 32 (2 * off.toNat)) (exec (.callf off) s) ∧
      pushResult s 4 (s.pc + 4).toNat (s.pc + 4 - BitVec.ofNat 32 (2 * off.toNat)) (exec (.callb off) s)) ∧
    (s.params.memSize < top.toNat + 4 →
      (∀ c j t, condHolds s.flags c = true → j.target (s.pc + BitVec.ofNat 32 (2 + j.extraBytes)) s = .ok t →
        exec (.call c j) s = trap s (.memoryBounds top.toNat)) ∧
      ∀ off : BitVec 24, exec (.callf off) s = trap s (.memoryBounds top.toNat) ∧
        exec (.callb off) s = trap s (.memoryBounds top.toNat))

/-- Tier 1. ret loads the pc from the long at sp and moves sp above it and 2 * stkc bytes, or takes MemoryBounds
(45_control_stack_misc.md R348). -/
def Obligations.ReturnResult : Prop :=
  (∀ (stkc : Byte) (rest : List Byte), decode defaultParams (0x65 :: stkc :: rest) = .ok (.ret stkc)) ∧
  ∀ (s : State) (stkc : Byte),
    (s.sp.toNat + 4 ≤ s.params.memSize → exec (.ret stkc) s = .next { s with
      pc := BitVec.ofNat 32 (s.mem.readLE s.sp.toNat 4),
      l := s.l.set 7 (s.sp + 4 + BitVec.ofNat 32 (2 * stkc.toNat)) }) ∧
    (s.params.memSize < s.sp.toNat + 4 → exec (.ret stkc) s = trap s (.memoryBounds s.sp.toNat))

/-- Tier 1. enter stores fp at sp - 4, sets fp to that address and sp to 2 * stkc below it, or takes MemoryBounds; its effect
is that of pushl fp, movl sp fp and subl of 2 * stkc from sp (45_control_stack_misc.md R362). -/
def Obligations.EnterResult : Prop :=
  (∀ (stkc : Byte) (rest : List Byte), decode defaultParams (0x33 :: stkc :: rest) = .ok (.enter stkc)) ∧
  ∀ (s : State) (stkc : Byte), s.mem.wf →
    let a := s.sp - 4
    let locals : Long := BitVec.ofNat 32 (2 * stkc.toNat)
    (a.toNat + 4 ≤ s.params.memSize → ∃ t, exec (.enter stkc) s = .next t ∧ storedAt s t a 4 s.fp.toNat ∧
      t = { s with mem := t.mem, l := (s.l.set 6 a).set 7 (a - locals), pc := s.pc + 2 }) ∧
    (s.params.memSize < a.toNat + 4 → exec (.enter stkc) s = trap s (.memoryBounds a.toNat)) ∧
    (∀ s1 s2 s3, exec (.pushl (.reg 6)) s = .next s1 → s1.faulted = false → exec (.movl (.reg 7) 6) s1 = .next s2 →
      exec (.subl (.immv locals) 7) s2 = .next s3 → exec (.enter stkc) s = .next { s3 with pc := s.pc + 2 })

/-- Tier 1. leave loads fp and the pc from the two longs at fp and moves sp above them and 2 * stkc bytes, whatever sp was,
or takes MemoryBounds for the first of them that is out of bounds; its effect is that of movl fp sp, popl fp and ret
(45_control_stack_misc.md R349). -/
def Obligations.LeaveResult : Prop :=
  (∀ (stkc : Byte) (rest : List Byte), decode defaultParams (0x3c :: stkc :: rest) = .ok (.leave stkc)) ∧
  ∀ (s : State) (stkc : Byte),
    let a := s.fp
    (a.toNat + 4 ≤ s.params.memSize → (a + 4).toNat + 4 ≤ s.params.memSize → exec (.leave stkc) s = .next { s with
      l := (s.l.set 6 (BitVec.ofNat 32 (s.mem.readLE a.toNat 4))).set 7 (a + 8 + BitVec.ofNat 32 (2 * stkc.toNat)),
      pc := BitVec.ofNat 32 (s.mem.readLE (a + 4).toNat 4) }) ∧
    (s.params.memSize < a.toNat + 4 → exec (.leave stkc) s = trap s (.memoryBounds a.toNat)) ∧
    (a.toNat + 4 ≤ s.params.memSize → s.params.memSize < (a + 4).toNat + 4 →
      exec (.leave stkc) s = trap s (.memoryBounds (a + 4).toNat)) ∧
    (∀ s1 s2 s3, exec (.movl (.reg 6) 7) s = .next s1 → exec (.popl (.reg 6)) s1 = .next s2 → s2.faulted = false →
      exec (.ret stkc) s2 = .next s3 → s3.faulted = false → exec (.leave stkc) s = .next s3)

/-- Tier 1. halt stops the machine with the pc at the next instruction, after which no step changes anything; nop changes
the pc alone; the second byte of either is 0 (45_control_stack_misc.md R364, R365). -/
def Obligations.HaltAndNop : Prop :=
  (∀ (b : Byte) (rest : List Byte),
    decode defaultParams (0x37 :: b :: rest) = (if b = 0 then .ok .halt else .error .reserved) ∧
    decode defaultParams (0x52 :: b :: rest) = (if b = 0 then .ok .nop else .error .reserved)) ∧
  ∀ (s : State),
    exec .halt s = .next { s with pc := s.pc + 2, status := .halted } ∧
    (∀ t, exec .halt s = .next t → step t = .next t) ∧
    exec .nop s = pcResult s (s.pc + 2)

/-! ## The stack -/

/-- Tier 2. The pushes complete where the operand is readable and the bytes below sp are in memory: the value, read with the
old sp, is stored at sp - n, sp moves there, and nothing else changes; out of bounds they take MemoryBounds
(45_control_stack_misc.md R352 to R355). -/
def Obligations.PushResults : Prop :=
  ∀ (s : State), s.mem.wf →
    let pushes (n v len : Nat) (o : Out) : Prop :=
      let a := s.sp - BitVec.ofNat 32 n
      (a.toNat + n ≤ s.params.memSize → pushResult s n v (s.pc + BitVec.ofNat 32 len) o) ∧
      (s.params.memSize < a.toNat + n → o = trap s (.memoryBounds a.toNat))
    (∀ (q : QOp 16) (v : Word), q.word s = .ok v → pushes 2 v.toNat (2 + q.extraBytes) (exec (.pushw q) s)) ∧
    (∀ (q : QOp 32) (v : Long), q.long s = .ok v → pushes 4 v.toNat (2 + q.extraBytes) (exec (.pushl q) s)) ∧
    (∀ (q : QOp 32) (v : Long), q.float s = .ok v → pushes 4 v.toNat (2 + q.extraBytes) (exec (.pushf q) s)) ∧
    (∀ (q : QOp 64) (v : Quad), q.double s = .ok v → pushes 8 v.toNat (2 + q.extraBytes) (exec (.pushd q) s))

/-- Tier 2. The pops complete where the top of the stack and a memory destination are in memory: the destination, at the
address the old sp gives, receives the top, then sp moves up; popl sp ends at the popped value plus 4; nothing else
changes. Where the top, or else the destination, is out of bounds they take MemoryBounds
(45_control_stack_misc.md R356 to R359, 60_exceptions.md R400). -/
def Obligations.PopResults : Prop :=
  ∀ (s : State) (k : Reg),
    let v (n : Nat) : Nat := s.mem.readLE s.sp.toNat n
    let up (n : Nat) : Vector Long 8 := s.l.set 7 (s.sp + BitVec.ofNat 32 n)
    let stores (n len : Nat) (a : Long) (o : Out) : Prop :=
      (s.mem.wf → a.toNat + n ≤ s.params.memSize → ∃ t, o = .next t ∧ storedAt s t a n (v n) ∧
        t = { s with mem := t.mem, l := up n, pc := s.pc + BitVec.ofNat 32 len }) ∧
      (s.params.memSize < a.toNat + n → o = trap s (.memoryBounds a.toNat))
    let empty (n : Nat) (o : Out) : Prop :=
      s.params.memSize < s.sp.toNat + n → o = trap s (.memoryBounds s.sp.toNat)
    (∀ q, empty 2 (exec (.popw q) s)) ∧ (∀ q, empty 4 (exec (.popl q) s) ∧ empty 4 (exec (.popf q) s)) ∧
    (∀ q, empty 8 (exec (.popd q) s)) ∧
    (s.sp.toNat + 2 ≤ s.params.memSize →
      exec (.popw (.reg k)) s = .next { s with w := s.w.set k.val (BitVec.ofNat 16 (v 2)), l := up 2, pc := s.pc + 2 } ∧
      ∀ (q : QOp 16) (a : Long), q.kind wordImms s = .mem a → stores 2 (2 + q.extraBytes) a (exec (.popw q) s)) ∧
    (s.sp.toNat + 4 ≤ s.params.memSize →
      (k ≠ 7 → exec (.popl (.reg k)) s =
        .next { s with l := (up 4).set k.val (BitVec.ofNat 32 (v 4)), pc := s.pc + 2 }) ∧
      exec (.popl (.reg 7)) s = .next { s with l := s.l.set 7 (BitVec.ofNat 32 (v 4) + 4), pc := s.pc + 2 } ∧
      exec (.popf (.reg k)) s = .next { s with f := s.f.set k.val (BitVec.ofNat 32 (v 4)), l := up 4, pc := s.pc + 2 } ∧
      ∀ (q : QOp 32) (a : Long),
        (q.kind longImms s = .mem a → stores 4 (2 + q.extraBytes) a (exec (.popl q) s)) ∧
        (q.kind floatImms s = .mem a → stores 4 (2 + q.extraBytes) a (exec (.popf q) s))) ∧
    (s.sp.toNat + 8 ≤ s.params.memSize →
      exec (.popd (.reg k)) s = .next { s with d := s.d.set k.val (BitVec.ofNat 64 (v 8)), l := up 8, pc := s.pc + 2 } ∧
      ∀ (q : QOp 64) (a : Long), q.kind doubleImms s = .mem a → stores 8 (2 + q.extraBytes) a (exec (.popd q) s))

/-- Tier 2. pushregs, for every mask: register n lies below those of the lower bits of the mask. Where all of them are in
memory it completes: each register is stored there, sp itself as it stands at its turn, no other byte of memory changes, sp ends
below them, and nothing else changes. Where one of them is not, it takes MemoryBounds for the first of them in the
order of the bits (45_control_stack_misc.md R360, 60_exceptions.md R396, R401). -/
def Obligations.PushregsResult : Prop :=
  ∀ (s : State) (m : Long),
    let upTo (n : Nat) : Long := m <<< (31 - n) >>> (31 - n)
    let size (n : Nat) : Nat := (GReg.ofNumber n).file.size
    let slot (n : Nat) : Long := s.sp - BitVec.ofNat 32 (maskBytes (upTo n))
    (s.mem.wf → s.params.wf = true →
      (∀ n < 32, m.getLsbD n = true → (slot n).toNat + size n ≤ s.params.memSize) →
      ∃ t, exec (.pushregs m) s = .next t ∧
        t = { s with mem := t.mem, l := s.l.set 7 (s.sp - BitVec.ofNat 32 (maskBytes m)), pc := s.pc + 6 } ∧
        (∀ b, (∀ n < 32, m.getLsbD n = true → b < (slot n).toNat ∨ (slot n).toNat + size n ≤ b) →
          t.mem.read b = s.mem.read b) ∧
        ∀ n < 32, m.getLsbD n = true → t.mem.readLE (slot n).toNat (size n) =
          if n = 15 then (s.sp - BitVec.ofNat 32 (maskBytes (upTo 14))).toNat else s.G (GReg.ofNumber n)) ∧
    (∀ n < 32, m.getLsbD n = true →
      (∀ j < n, m.getLsbD j = true → (slot j).toNat + size j ≤ s.params.memSize) →
      s.params.memSize < (slot n).toNat + size n → exec (.pushregs m) s = trap s (.memoryBounds (slot n).toNat))

/-- Tier 2. popregs, for every mask: register n comes from above those of the higher bits of the mask; where the mask has sp, sp
becomes the long popped for it plus 4, and the registers of the lower bits come from there. Where all of them are in
memory it completes: each register of the mask has the number that lies there, the others keep their values, sp ends
above the last, and memory and all else are unchanged. Where one of them is not, it takes MemoryBounds for the first of
them from bit 31 down (45_control_stack_misc.md R361, 60_exceptions.md R396, R401). -/
def Obligations.PopregsResult : Prop :=
  ∀ (s : State) (m : Long),
    let above (n : Nat) : Long := m >>> (n + 1) <<< (n + 1)
    let size (n : Nat) : Nat := (GReg.ofNumber n).file.size
    let popped : Long := BitVec.ofNat 32 (s.mem.readLE (s.sp + BitVec.ofNat 32 (maskBytes (above 15))).toNat 4)
    let slot (n : Nat) : Long :=
      if n < 15 ∧ m.getLsbD 15 = true then popped + 4 + BitVec.ofNat 32 (maskBytes (above n &&& 0x7fff))
      else s.sp + BitVec.ofNat 32 (maskBytes (above n))
    ((∀ n < 32, m.getLsbD n = true → (slot n).toNat + size n ≤ s.params.memSize) →
      ∃ t, exec (.popregs m) s = .next t ∧
        t = { s with w := t.w, l := t.l, f := t.f, d := t.d, pc := s.pc + 6 } ∧
        t.sp = (if m.getLsbD 15 then popped + 4 + BitVec.ofNat 32 (maskBytes (m &&& 0x7fff))
          else s.sp + BitVec.ofNat 32 (maskBytes m)) ∧
        ∀ n < 32, n ≠ 15 → t.G (GReg.ofNumber n) =
          if m.getLsbD n then s.mem.readLE (slot n).toNat (size n) else s.G (GReg.ofNumber n)) ∧
    (∀ n < 32, m.getLsbD n = true →
      (∀ j < 32, n < j → m.getLsbD j = true → (slot j).toNat + size j ≤ s.params.memSize) →
      s.params.memSize < (slot n).toNat + size n → exec (.popregs m) s = trap s (.memoryBounds (slot n).toNat))

/-- Tier 2. pushregs is a push of its lowest register followed by pushregs of the others, and popregs a pop of its highest
register followed by popregs of the others, wherever none of these faults, for every mask and sp
(45_control_stack_misc.md R360, R361). -/
def Obligations.RegisterMasksAreOnePushOrPopAtATime : Prop :=
  ∀ (s t u : State) (m : Long) (n : Nat), n < 32 → m.getLsbD n = true → t.faulted = false → u.faulted = false →
    let rest : Long := m ^^^ 1#32 <<< n
    ((∀ j < n, m.getLsbD j = false) → exec (pushInstr (GReg.ofNumber n)) s = .next t →
      exec (.pushregs rest) { t with pc := s.pc } = .next u → exec (.pushregs m) s = .next u) ∧
    ((∀ j < 32, n < j → m.getLsbD j = false) → exec (popInstr (GReg.ofNumber n)) s = .next t →
      exec (.popregs rest) { t with pc := s.pc } = .next u → exec (.popregs m) s = .next u)

/-- Tier 2. popregs undoes pushregs with the same mask: where pushregs of a mask without sp completes, popregs completes after
it and restores every register, and sp, to what it was before (45_control_stack_misc.md R360, R361). -/
def Obligations.PopregsUndoesPushregs : Prop :=
  ∀ (s t : State) (m : Long), s.mem.wf → s.params.wf = true → m.getLsbD 15 = false →
    exec (.pushregs m) s = .next t → t.faulted = false →
    exec (.popregs m) t = .next { s with mem := t.mem, pc := s.pc + 12 }

/-- Tier 2. entersav is enter followed by pushregs, and leaveres is popregs followed by leave with the fp that results:
where neither part faults, the effect of both; where the first or else the second faults, the same fault, taken on the state
before the instruction. Both complete where their frames are in memory (45_control_stack_misc.md R350, R363,
60_exceptions.md R401). -/
def Obligations.EntersavAndLeaveresResults : Prop :=
  ∀ (s : State) (stkc : Byte) (m : Long),
    let locals : Nat := 2 * stkc.toNat
    (∀ t u, exec (.enter stkc) s = .next t → t.faulted = false → exec (.pushregs m) t = .next u → u.faulted = false →
      exec (.entersav stkc m) s = .next { u with pc := s.pc + 6 }) ∧
    (∀ t u, exec (.popregs m) s = .next t → t.faulted = false → exec (.leave stkc) t = .next u → u.faulted = false →
      exec (.leaveres stkc m) s = .next u) ∧
    (∀ x, exec (.enter stkc) s = trap s x → exec (.entersav stkc m) s = trap s x) ∧
    (∀ t x, exec (.enter stkc) s = .next t → t.faulted = false → exec (.pushregs m) t = trap t x →
      exec (.entersav stkc m) s = trap s x) ∧
    (∀ x, exec (.popregs m) s = trap s x → exec (.leaveres stkc m) s = trap s x) ∧
    (∀ t x, exec (.popregs m) s = .next t → t.faulted = false → exec (.leave stkc) t = trap t x →
      exec (.leaveres stkc m) s = trap s x) ∧
    (s.mem.wf → s.params.wf = true → 4 + locals + maskBytes m ≤ s.sp.toNat → s.sp.toNat ≤ s.params.memSize →
      ∃ t, exec (.entersav stkc m) s = .next t ∧
        t = { s with
          mem := t.mem,
          pc := s.pc + 6,
          l := (s.l.set 6 (s.sp - 4)).set 7 (s.sp - BitVec.ofNat 32 (4 + locals + maskBytes m)) } ∧
        ∀ b, b < s.sp.toNat - (4 + locals + maskBytes m) ∨ s.sp.toNat ≤ b → t.mem.read b = s.mem.read b) ∧
    (s.params.wf = true → m.getLsbD 14 = false → m.getLsbD 15 = false →
      s.sp.toNat + maskBytes m ≤ s.params.memSize → s.fp.toNat + 8 ≤ s.params.memSize →
      ∃ t, exec (.leaveres stkc m) s = .next t ∧
        t = { s with w := t.w, l := t.l, f := t.f, d := t.d, pc := BitVec.ofNat 32 (s.mem.readLE (s.fp.toNat + 4) 4) } ∧
        t.fp = BitVec.ofNat 32 (s.mem.readLE s.fp.toNat 4) ∧ t.sp = s.fp + 8 + BitVec.ofNat 32 locals)

/-- Tier 2. Returns undo their entries: ret 0 after a callf comes back behind it with the sp it had; leave after enter
restores fp and returns as ret would have done before enter (45_control_stack_misc.md R346, R348, R349, R362). -/
def Obligations.ReturnsUndoTheirEntries : Prop :=
  ∀ (s t : State), s.mem.wf → s.params.wf = true → t.faulted = false →
    (∀ off, exec (.callf off) s = .next t → exec (.ret 0) t = .next { s with mem := t.mem, pc := s.pc + 4 }) ∧
    (∀ j k, s.sp.toNat + 4 ≤ s.params.memSize → exec (.enter j) s = .next t →
      exec (.leave k) t = .next { s with
        mem := t.mem,
        l := s.l.set 7 (s.sp + 4 + BitVec.ofNat 32 (2 * k.toNat)),
        pc := BitVec.ofNat 32 (s.mem.readLE s.sp.toNat 4) })
end

