-- ==== Sys2Proof/Laws/Memory.lean ====
section
/-! SUPPORT. The laws of memory: what is read after a write, that every operation keeps the canonical form and
the bound, and little-endian numbers byte by byte. -/

namespace Sys2Proof.Machine

/-! ## One byte -/

/-- A write leaves every other address as it was. -/
theorem Memory.read_write_other (m : Memory) (a b : Nat) (v : Byte) (h : b ≠ a) :
    (m.write a v).read b = m.read b := by
  induction m with
  | nil => by_cases hv : v = unlistedByte <;> simp [Memory.write, Memory.read, hv, h]
  | cons c m ih =>
    obtain ⟨x, u⟩ := c
    simp only [Memory.write]
    split
    · split <;> simp [Memory.read, h]
    · split
      · subst x
        split <;> simp [Memory.read, h]
      · simp [Memory.read, ih]

/-- An address below every listed one reads as the unlisted byte. -/
theorem Memory.read_below (m : Memory) (a : Nat) (h : ∀ c ∈ m, a < c.1) : m.read a = unlistedByte := by
  induction m with
  | nil => rfl
  | cons c m ih =>
    have h1 := h c (by simp)
    simp only [Memory.read, show ¬ a = c.1 by omega, if_false]
    exact ih fun x hx => h x (by simp [hx])

/-- In canonical form a write is read back. -/
theorem Memory.read_write_self (m : Memory) (a : Nat) (v : Byte) (w : m.wf) : (m.write a v).read a = v := by
  obtain ⟨hp, hn⟩ := w
  induction m with
  | nil => by_cases hv : v = unlistedByte <;> simp [Memory.write, Memory.read, hv]
  | cons c m ih =>
    obtain ⟨x, u⟩ := c
    rw [List.pairwise_cons] at hp
    have hn' : ∀ c ∈ m, c.2 ≠ unlistedByte := fun c hc => hn c (by simp [hc])
    simp only [Memory.write]
    split
    · rename_i hx
      split
      · rename_i hv
        rw [hv]
        refine Memory.read_below _ _ fun c hc => ?_
        rcases List.mem_cons.1 hc with rfl | hc
        · exact hx
        · exact Nat.lt_trans hx (hp.1 c hc)
      · simp [Memory.read]
    · split
      · subst x
        split
        · rename_i hv
          rw [hv]
          exact Memory.read_below _ _ hp.1
        · simp [Memory.read]
      · rename_i hne
        simp only [Memory.read, hne, if_false]
        exact ih hp.2 hn'

/-- Every address a write lists was listed or is the one written. -/
theorem Memory.mem_write (m : Memory) (a : Nat) (v : Byte) (c : Host.Cell) (h : c ∈ m.write a v) :
    c ∈ m ∨ (c = (a, v) ∧ v ≠ unlistedByte) := by
  induction m with
  | nil =>
    simp only [Memory.write] at h
    split at h <;> simp_all
  | cons x m ih =>
    obtain ⟨b, u⟩ := x
    simp only [Memory.write] at h
    split at h
    · split at h <;> (simp_all; try tauto)
    · split at h
      · split at h <;> (simp_all; try tauto)
      · simp only [List.mem_cons] at h ⊢
        rcases h with h | h
        · exact .inl (.inl h)
        · rcases ih h with h | h
          · exact .inl (.inr h)
          · exact .inr h

/-- A write keeps the canonical form. -/
theorem Memory.wf_write (m : Memory) (a : Nat) (v : Byte) (w : m.wf) : (m.write a v).wf := by
  refine ⟨?_, fun c hc => ?_⟩
  · obtain ⟨hp, -⟩ := w
    induction m with
    | nil => simp only [Memory.write]; split <;> simp
    | cons x m ih =>
      obtain ⟨b, u⟩ := x
      have hp' := List.pairwise_cons.1 hp
      simp only [Memory.write]
      split
      · rename_i hab
        split
        · exact hp
        · refine List.pairwise_cons.2 ⟨fun c hc => ?_, hp⟩
          rcases List.mem_cons.1 hc with rfl | hc
          · exact hab
          · exact Nat.lt_trans hab (hp'.1 c hc)
      · split
        · subst b
          split
          · exact hp'.2
          · exact List.pairwise_cons.2 ⟨hp'.1, hp'.2⟩
        · refine List.pairwise_cons.2 ⟨fun c hc => ?_, ih hp'.2⟩
          rcases Memory.mem_write m a v c hc with h | ⟨rfl, -⟩
          · exact hp'.1 c h
          · simp only; omega
  · rcases Memory.mem_write m a v c hc with h | ⟨rfl, h⟩
    · exact w.2 c h
    · exact h

/-- A write below a bound keeps every listed address below it. -/
theorem Memory.below_write (m : Memory) (a n : Nat) (v : Byte) (w : m.below n) (h : a < n) :
    (m.write a v).below n := by
  intro c hc
  rcases Memory.mem_write m a v c hc with h' | ⟨rfl, -⟩
  · exact w c h'
  · exact h

/-! ## Several bytes -/

/-- A little-endian store keeps the canonical form. -/
theorem Memory.wf_writeLE (m : Memory) (a n v : Nat) (w : m.wf) : (m.writeLE a n v).wf := by
  induction n generalizing m a v with
  | zero => exact w
  | succ n ih => exact ih _ _ _ (Memory.wf_write _ _ _ w)

/-- A little-endian store inside a bound keeps every listed address below it. -/
theorem Memory.below_writeLE (m : Memory) (a n v k : Nat) (w : m.below k) (h : a + n ≤ k) :
    (m.writeLE a n v).below k := by
  induction n generalizing m a v with
  | zero => exact w
  | succ n ih => exact ih _ _ _ (Memory.below_write _ _ _ _ w (by omega)) (by omega)

/-- A little-endian store leaves every byte outside it as it was. -/
theorem Memory.read_writeLE_other (m : Memory) (a n v b : Nat) (h : b < a ∨ a + n ≤ b) :
    (m.writeLE a n v).read b = m.read b := by
  induction n generalizing m a v with
  | zero => rfl
  | succ n ih =>
    rw [Memory.writeLE, ih _ _ _ (by omega), Memory.read_write_other _ _ _ _ (by omega)]

/-- Byte `k` of a little-endian store is digit `k` of the number in base 256 (20_memory.md R53). -/
theorem Memory.read_writeLE_self (m : Memory) (a n v k : Nat) (w : m.wf) (h : k < n) :
    (m.writeLE a n v).read (a + k) = BitVec.ofNat 8 (v / 256 ^ k) := by
  induction n generalizing m a v k with
  | zero => omega
  | succ n ih =>
    rw [Memory.writeLE]
    cases k with
    | zero =>
      rw [Memory.read_writeLE_other _ _ _ _ _ (by omega), Nat.add_zero, Memory.read_write_self _ _ _ w]
      simp
    | succ k =>
      rw [show a + (k + 1) = a + 1 + k by omega, ih _ _ _ _ (Memory.wf_write _ _ _ w) (by omega),
        Nat.pow_succ', Nat.div_div_eq_div_mul]

/-- A little-endian number of `n` bytes is below 256 ^ n. -/
theorem Memory.readLE_lt (m : Memory) (a n : Nat) : m.readLE a n < 256 ^ n := by
  induction n generalizing a with
  | zero => simp [Memory.readLE]
  | succ n ih =>
    have h1 := (m.read a).isLt
    have h2 := ih (a + 1)
    simp only [Memory.readLE, Nat.pow_succ]
    omega

/-- The number read depends on its own bytes alone. -/
theorem Memory.readLE_congr (m m' : Memory) (a n : Nat) (h : ∀ k < n, m.read (a + k) = m'.read (a + k)) :
    m.readLE a n = m'.readLE a n := by
  induction n generalizing a with
  | zero => rfl
  | succ n ih =>
    have h0 := h 0 (by omega)
    rw [Nat.add_zero] at h0
    rw [Memory.readLE, Memory.readLE, h0, ih (a + 1) fun k hk => ?_]
    have := h (k + 1) (by omega)
    rwa [show a + (k + 1) = a + 1 + k by omega] at this

/-- A store leaves a number read outside it as it was. -/
theorem Memory.readLE_writeLE_other (m : Memory) (a n v b j : Nat) (h : b + j ≤ a ∨ a + n ≤ b) :
    (m.writeLE a n v).readLE b j = m.readLE b j :=
  Memory.readLE_congr _ _ _ _ fun _ _ => Memory.read_writeLE_other _ _ _ _ _ (by omega)

/-- In canonical form a stored number is read back, as far as its bytes hold it (20_memory.md R52, R53). -/
theorem Memory.readLE_writeLE_self (m : Memory) (a n v : Nat) (w : m.wf) :
    (m.writeLE a n v).readLE a n = v % 256 ^ n := by
  induction n generalizing m a v with
  | zero => simp [Memory.readLE, Nat.mod_one]
  | succ n ih =>
    have h0 : (m.writeLE a (n + 1) v).read a = BitVec.ofNat 8 v := by
      have := Memory.read_writeLE_self m a (n + 1) v 0 w (by omega)
      simpa using this
    have h1 : (m.writeLE a (n + 1) v).readLE (a + 1) n = v / 256 % 256 ^ n := by
      rw [Memory.writeLE]
      exact ih _ _ _ (Memory.wf_write _ _ _ w)
    rw [Memory.readLE, h0, h1, BitVec.toNat_ofNat, pow_succ' 256 n, Nat.mod_mul, show 2 ^ 8 = 256 from rfl]

/-- Storing a sequence of bytes keeps the canonical form. -/
theorem Memory.wf_writeBytes (m : Memory) (a : Nat) (bs : List Byte) (w : m.wf) : (m.writeBytes a bs).wf := by
  induction bs generalizing m a with
  | nil => exact w
  | cons b bs ih => exact ih _ _ (Memory.wf_write _ _ _ w)

/-- Storing a sequence of bytes inside a bound keeps every listed address below it. -/
theorem Memory.below_writeBytes (m : Memory) (a n : Nat) (bs : List Byte) (w : m.below n)
    (h : a + bs.length ≤ n) : (m.writeBytes a bs).below n := by
  induction bs generalizing m a with
  | nil => exact w
  | cons b bs ih =>
    rw [List.length_cons] at h
    exact ih _ _ (Memory.below_write _ _ _ _ w (by omega)) (by omega)

/-- Storing a sequence of bytes leaves every byte outside it as it was. -/
theorem Memory.read_writeBytes_other (m : Memory) (a b : Nat) (bs : List Byte)
    (h : b < a ∨ a + bs.length ≤ b) : (m.writeBytes a bs).read b = m.read b := by
  induction bs generalizing m a with
  | nil => rfl
  | cons c bs ih =>
    rw [List.length_cons] at h
    rw [Memory.writeBytes, ih _ _ (by omega), Memory.read_write_other _ _ _ _ (by omega)]

/-- In canonical form a stored sequence of bytes is read back. -/
theorem Memory.read_writeBytes_self (m : Memory) (a k : Nat) (bs : List Byte) (w : m.wf) (h : k < bs.length) :
    (m.writeBytes a bs).read (a + k) = bs[k] := by
  induction bs generalizing m a k with
  | nil => simp at h
  | cons c bs ih =>
    rw [Memory.writeBytes]
    cases k with
    | zero =>
      rw [Memory.read_writeBytes_other _ _ _ _ (by omega), Nat.add_zero, Memory.read_write_self _ _ _ w]
      rfl
    | succ k =>
      rw [List.length_cons] at h
      rw [show a + (k + 1) = a + 1 + k by omega, ih _ _ _ (Memory.wf_write _ _ _ w) (by omega)]
      rfl

end Sys2Proof.Machine
end

