-- ==== Sys2Proof/Laws/State.lean ====
section
/-! SUPPORT. One lemma per field per update of the state, and what a register read answers after each update. -/

namespace Sys2Proof.Machine

/-! ## setW -/

@[simp] theorem State.setW_w (s : State) (k : Reg) (v : Word) : (s.setW k v).w = s.w.set k.val v := rfl
@[simp] theorem State.setW_l (s : State) (k : Reg) (v : Word) : (s.setW k v).l = s.l := rfl
@[simp] theorem State.setW_f (s : State) (k : Reg) (v : Word) : (s.setW k v).f = s.f := rfl
@[simp] theorem State.setW_d (s : State) (k : Reg) (v : Word) : (s.setW k v).d = s.d := rfl
@[simp] theorem State.setW_pc (s : State) (k : Reg) (v : Word) : (s.setW k v).pc = s.pc := rfl
@[simp] theorem State.setW_flags (s : State) (k : Reg) (v : Word) : (s.setW k v).flags = s.flags := rfl
@[simp] theorem State.setW_status (s : State) (k : Reg) (v : Word) : (s.setW k v).status = s.status := rfl
@[simp] theorem State.setW_mem (s : State) (k : Reg) (v : Word) : (s.setW k v).mem = s.mem := rfl
@[simp] theorem State.setW_params (s : State) (k : Reg) (v : Word) : (s.setW k v).params = s.params := rfl
@[simp] theorem State.setW_freeCount (s : State) (k : Reg) (v : Word) : (s.setW k v).freeCount = s.freeCount := rfl

@[simp] theorem State.setW_W_self (s : State) (k : Reg) (v : Word) : (s.setW k v).W k = v := by
  simp [State.W, State.setW]

theorem State.setW_W (s : State) (k : Reg) (v : Word) (j : Reg) : (s.setW k v).W j = if k = j then v else s.W j := by
  simp [State.W, State.setW, Vector.getElem_set, Fin.ext_iff]

@[simp] theorem State.setW_W_other (s : State) (k : Reg) (v : Word) (j : Reg) (h : k ≠ j) : (s.setW k v).W j = s.W j := by
  simp [State.setW_W, h]

@[simp] theorem State.setW_L (s : State) (k : Reg) (v : Word) (j : Reg) : (s.setW k v).L j = s.L j := rfl
@[simp] theorem State.setW_F (s : State) (k : Reg) (v : Word) (j : Reg) : (s.setW k v).F j = s.F j := rfl
@[simp] theorem State.setW_D (s : State) (k : Reg) (v : Word) (j : Reg) : (s.setW k v).D j = s.D j := rfl

/-! ## setL -/

@[simp] theorem State.setL_w (s : State) (k : Reg) (v : Long) : (s.setL k v).w = s.w := rfl
@[simp] theorem State.setL_l (s : State) (k : Reg) (v : Long) : (s.setL k v).l = s.l.set k.val v := rfl
@[simp] theorem State.setL_f (s : State) (k : Reg) (v : Long) : (s.setL k v).f = s.f := rfl
@[simp] theorem State.setL_d (s : State) (k : Reg) (v : Long) : (s.setL k v).d = s.d := rfl
@[simp] theorem State.setL_pc (s : State) (k : Reg) (v : Long) : (s.setL k v).pc = s.pc := rfl
@[simp] theorem State.setL_flags (s : State) (k : Reg) (v : Long) : (s.setL k v).flags = s.flags := rfl
@[simp] theorem State.setL_status (s : State) (k : Reg) (v : Long) : (s.setL k v).status = s.status := rfl
@[simp] theorem State.setL_mem (s : State) (k : Reg) (v : Long) : (s.setL k v).mem = s.mem := rfl
@[simp] theorem State.setL_params (s : State) (k : Reg) (v : Long) : (s.setL k v).params = s.params := rfl
@[simp] theorem State.setL_freeCount (s : State) (k : Reg) (v : Long) : (s.setL k v).freeCount = s.freeCount := rfl
@[simp] theorem State.setL_W (s : State) (k : Reg) (v : Long) (j : Reg) : (s.setL k v).W j = s.W j := rfl

@[simp] theorem State.setL_L_self (s : State) (k : Reg) (v : Long) : (s.setL k v).L k = v := by
  simp [State.L, State.setL]

theorem State.setL_L (s : State) (k : Reg) (v : Long) (j : Reg) : (s.setL k v).L j = if k = j then v else s.L j := by
  simp [State.L, State.setL, Vector.getElem_set, Fin.ext_iff]

@[simp] theorem State.setL_L_other (s : State) (k : Reg) (v : Long) (j : Reg) (h : k ≠ j) : (s.setL k v).L j = s.L j := by
  simp [State.setL_L, h]

@[simp] theorem State.setL_F (s : State) (k : Reg) (v : Long) (j : Reg) : (s.setL k v).F j = s.F j := rfl
@[simp] theorem State.setL_D (s : State) (k : Reg) (v : Long) (j : Reg) : (s.setL k v).D j = s.D j := rfl

/-! ## setF -/

@[simp] theorem State.setF_w (s : State) (k : Reg) (v : Long) : (s.setF k v).w = s.w := rfl
@[simp] theorem State.setF_l (s : State) (k : Reg) (v : Long) : (s.setF k v).l = s.l := rfl
@[simp] theorem State.setF_f (s : State) (k : Reg) (v : Long) : (s.setF k v).f = s.f.set k.val v := rfl
@[simp] theorem State.setF_d (s : State) (k : Reg) (v : Long) : (s.setF k v).d = s.d := rfl
@[simp] theorem State.setF_pc (s : State) (k : Reg) (v : Long) : (s.setF k v).pc = s.pc := rfl
@[simp] theorem State.setF_flags (s : State) (k : Reg) (v : Long) : (s.setF k v).flags = s.flags := rfl
@[simp] theorem State.setF_status (s : State) (k : Reg) (v : Long) : (s.setF k v).status = s.status := rfl
@[simp] theorem State.setF_mem (s : State) (k : Reg) (v : Long) : (s.setF k v).mem = s.mem := rfl
@[simp] theorem State.setF_params (s : State) (k : Reg) (v : Long) : (s.setF k v).params = s.params := rfl
@[simp] theorem State.setF_freeCount (s : State) (k : Reg) (v : Long) : (s.setF k v).freeCount = s.freeCount := rfl
@[simp] theorem State.setF_W (s : State) (k : Reg) (v : Long) (j : Reg) : (s.setF k v).W j = s.W j := rfl
@[simp] theorem State.setF_L (s : State) (k : Reg) (v : Long) (j : Reg) : (s.setF k v).L j = s.L j := rfl

@[simp] theorem State.setF_F_self (s : State) (k : Reg) (v : Long) : (s.setF k v).F k = v := by
  simp [State.F, State.setF]

theorem State.setF_F (s : State) (k : Reg) (v : Long) (j : Reg) : (s.setF k v).F j = if k = j then v else s.F j := by
  simp [State.F, State.setF, Vector.getElem_set, Fin.ext_iff]

@[simp] theorem State.setF_F_other (s : State) (k : Reg) (v : Long) (j : Reg) (h : k ≠ j) : (s.setF k v).F j = s.F j := by
  simp [State.setF_F, h]

@[simp] theorem State.setF_D (s : State) (k : Reg) (v : Long) (j : Reg) : (s.setF k v).D j = s.D j := rfl

/-! ## setD -/

@[simp] theorem State.setD_w (s : State) (k : Reg) (v : Quad) : (s.setD k v).w = s.w := rfl
@[simp] theorem State.setD_l (s : State) (k : Reg) (v : Quad) : (s.setD k v).l = s.l := rfl
@[simp] theorem State.setD_f (s : State) (k : Reg) (v : Quad) : (s.setD k v).f = s.f := rfl
@[simp] theorem State.setD_d (s : State) (k : Reg) (v : Quad) : (s.setD k v).d = s.d.set k.val v := rfl
@[simp] theorem State.setD_pc (s : State) (k : Reg) (v : Quad) : (s.setD k v).pc = s.pc := rfl
@[simp] theorem State.setD_flags (s : State) (k : Reg) (v : Quad) : (s.setD k v).flags = s.flags := rfl
@[simp] theorem State.setD_status (s : State) (k : Reg) (v : Quad) : (s.setD k v).status = s.status := rfl
@[simp] theorem State.setD_mem (s : State) (k : Reg) (v : Quad) : (s.setD k v).mem = s.mem := rfl
@[simp] theorem State.setD_params (s : State) (k : Reg) (v : Quad) : (s.setD k v).params = s.params := rfl
@[simp] theorem State.setD_freeCount (s : State) (k : Reg) (v : Quad) : (s.setD k v).freeCount = s.freeCount := rfl
@[simp] theorem State.setD_W (s : State) (k : Reg) (v : Quad) (j : Reg) : (s.setD k v).W j = s.W j := rfl
@[simp] theorem State.setD_L (s : State) (k : Reg) (v : Quad) (j : Reg) : (s.setD k v).L j = s.L j := rfl
@[simp] theorem State.setD_F (s : State) (k : Reg) (v : Quad) (j : Reg) : (s.setD k v).F j = s.F j := rfl

@[simp] theorem State.setD_D_self (s : State) (k : Reg) (v : Quad) : (s.setD k v).D k = v := by
  simp [State.D, State.setD]

theorem State.setD_D (s : State) (k : Reg) (v : Quad) (j : Reg) : (s.setD k v).D j = if k = j then v else s.D j := by
  simp [State.D, State.setD, Vector.getElem_set, Fin.ext_iff]

@[simp] theorem State.setD_D_other (s : State) (k : Reg) (v : Quad) (j : Reg) (h : k ≠ j) : (s.setD k v).D j = s.D j := by
  simp [State.setD_D, h]


/-! ## setPc -/

@[simp] theorem State.setPc_w (s : State) (v : Long) : (s.setPc v).w = s.w := rfl
@[simp] theorem State.setPc_l (s : State) (v : Long) : (s.setPc v).l = s.l := rfl
@[simp] theorem State.setPc_f (s : State) (v : Long) : (s.setPc v).f = s.f := rfl
@[simp] theorem State.setPc_d (s : State) (v : Long) : (s.setPc v).d = s.d := rfl
@[simp] theorem State.setPc_pc (s : State) (v : Long) : (s.setPc v).pc = v := rfl
@[simp] theorem State.setPc_flags (s : State) (v : Long) : (s.setPc v).flags = s.flags := rfl
@[simp] theorem State.setPc_status (s : State) (v : Long) : (s.setPc v).status = s.status := rfl
@[simp] theorem State.setPc_mem (s : State) (v : Long) : (s.setPc v).mem = s.mem := rfl
@[simp] theorem State.setPc_params (s : State) (v : Long) : (s.setPc v).params = s.params := rfl
@[simp] theorem State.setPc_freeCount (s : State) (v : Long) : (s.setPc v).freeCount = s.freeCount := rfl
@[simp] theorem State.setPc_W (s : State) (v : Long) (j : Reg) : (s.setPc v).W j = s.W j := rfl
@[simp] theorem State.setPc_L (s : State) (v : Long) (j : Reg) : (s.setPc v).L j = s.L j := rfl
@[simp] theorem State.setPc_F (s : State) (v : Long) (j : Reg) : (s.setPc v).F j = s.F j := rfl
@[simp] theorem State.setPc_D (s : State) (v : Long) (j : Reg) : (s.setPc v).D j = s.D j := rfl

/-! ## setFlags -/

@[simp] theorem State.setFlags_w (s : State) (v : Word) : (s.setFlags v).w = s.w := rfl
@[simp] theorem State.setFlags_l (s : State) (v : Word) : (s.setFlags v).l = s.l := rfl
@[simp] theorem State.setFlags_f (s : State) (v : Word) : (s.setFlags v).f = s.f := rfl
@[simp] theorem State.setFlags_d (s : State) (v : Word) : (s.setFlags v).d = s.d := rfl
@[simp] theorem State.setFlags_pc (s : State) (v : Word) : (s.setFlags v).pc = s.pc := rfl
@[simp] theorem State.setFlags_flags (s : State) (v : Word) : (s.setFlags v).flags = v := rfl
@[simp] theorem State.setFlags_status (s : State) (v : Word) : (s.setFlags v).status = s.status := rfl
@[simp] theorem State.setFlags_mem (s : State) (v : Word) : (s.setFlags v).mem = s.mem := rfl
@[simp] theorem State.setFlags_params (s : State) (v : Word) : (s.setFlags v).params = s.params := rfl
@[simp] theorem State.setFlags_freeCount (s : State) (v : Word) : (s.setFlags v).freeCount = s.freeCount := rfl
@[simp] theorem State.setFlags_W (s : State) (v : Word) (j : Reg) : (s.setFlags v).W j = s.W j := rfl
@[simp] theorem State.setFlags_L (s : State) (v : Word) (j : Reg) : (s.setFlags v).L j = s.L j := rfl
@[simp] theorem State.setFlags_F (s : State) (v : Word) (j : Reg) : (s.setFlags v).F j = s.F j := rfl
@[simp] theorem State.setFlags_D (s : State) (v : Word) (j : Reg) : (s.setFlags v).D j = s.D j := rfl

/-! ## setStatus -/

@[simp] theorem State.setStatus_w (s : State) (v : Status) : (s.setStatus v).w = s.w := rfl
@[simp] theorem State.setStatus_l (s : State) (v : Status) : (s.setStatus v).l = s.l := rfl
@[simp] theorem State.setStatus_f (s : State) (v : Status) : (s.setStatus v).f = s.f := rfl
@[simp] theorem State.setStatus_d (s : State) (v : Status) : (s.setStatus v).d = s.d := rfl
@[simp] theorem State.setStatus_pc (s : State) (v : Status) : (s.setStatus v).pc = s.pc := rfl
@[simp] theorem State.setStatus_flags (s : State) (v : Status) : (s.setStatus v).flags = s.flags := rfl
@[simp] theorem State.setStatus_status (s : State) (v : Status) : (s.setStatus v).status = v := rfl
@[simp] theorem State.setStatus_mem (s : State) (v : Status) : (s.setStatus v).mem = s.mem := rfl
@[simp] theorem State.setStatus_params (s : State) (v : Status) : (s.setStatus v).params = s.params := rfl
@[simp] theorem State.setStatus_freeCount (s : State) (v : Status) : (s.setStatus v).freeCount = s.freeCount := rfl
@[simp] theorem State.setStatus_W (s : State) (v : Status) (j : Reg) : (s.setStatus v).W j = s.W j := rfl
@[simp] theorem State.setStatus_L (s : State) (v : Status) (j : Reg) : (s.setStatus v).L j = s.L j := rfl
@[simp] theorem State.setStatus_F (s : State) (v : Status) (j : Reg) : (s.setStatus v).F j = s.F j := rfl
@[simp] theorem State.setStatus_D (s : State) (v : Status) (j : Reg) : (s.setStatus v).D j = s.D j := rfl

/-! ## setMem -/

@[simp] theorem State.setMem_w (s : State) (m : Memory) : (s.setMem m).w = s.w := rfl
@[simp] theorem State.setMem_l (s : State) (m : Memory) : (s.setMem m).l = s.l := rfl
@[simp] theorem State.setMem_f (s : State) (m : Memory) : (s.setMem m).f = s.f := rfl
@[simp] theorem State.setMem_d (s : State) (m : Memory) : (s.setMem m).d = s.d := rfl
@[simp] theorem State.setMem_pc (s : State) (m : Memory) : (s.setMem m).pc = s.pc := rfl
@[simp] theorem State.setMem_flags (s : State) (m : Memory) : (s.setMem m).flags = s.flags := rfl
@[simp] theorem State.setMem_status (s : State) (m : Memory) : (s.setMem m).status = s.status := rfl
@[simp] theorem State.setMem_mem (s : State) (m : Memory) : (s.setMem m).mem = m := rfl
@[simp] theorem State.setMem_params (s : State) (m : Memory) : (s.setMem m).params = s.params := rfl
@[simp] theorem State.setMem_freeCount (s : State) (m : Memory) : (s.setMem m).freeCount = s.freeCount := rfl
@[simp] theorem State.setMem_W (s : State) (m : Memory) (j : Reg) : (s.setMem m).W j = s.W j := rfl
@[simp] theorem State.setMem_L (s : State) (m : Memory) (j : Reg) : (s.setMem m).L j = s.L j := rfl
@[simp] theorem State.setMem_F (s : State) (m : Memory) (j : Reg) : (s.setMem m).F j = s.F j := rfl
@[simp] theorem State.setMem_D (s : State) (m : Memory) (j : Reg) : (s.setMem m).D j = s.D j := rfl

/-! ## useFree -/

@[simp] theorem State.useFree_w (s : State) : (s.useFree).w = s.w := rfl
@[simp] theorem State.useFree_l (s : State) : (s.useFree).l = s.l := rfl
@[simp] theorem State.useFree_f (s : State) : (s.useFree).f = s.f := rfl
@[simp] theorem State.useFree_d (s : State) : (s.useFree).d = s.d := rfl
@[simp] theorem State.useFree_pc (s : State) : (s.useFree).pc = s.pc := rfl
@[simp] theorem State.useFree_flags (s : State) : (s.useFree).flags = s.flags := rfl
@[simp] theorem State.useFree_status (s : State) : (s.useFree).status = s.status := rfl
@[simp] theorem State.useFree_mem (s : State) : (s.useFree).mem = s.mem := rfl
@[simp] theorem State.useFree_params (s : State) : (s.useFree).params = s.params := rfl
@[simp] theorem State.useFree_freeCount (s : State) : (s.useFree).freeCount = s.freeCount + 1 := rfl
@[simp] theorem State.useFree_W (s : State) (j : Reg) : (s.useFree).W j = s.W j := rfl
@[simp] theorem State.useFree_L (s : State) (j : Reg) : (s.useFree).L j = s.L j := rfl
@[simp] theorem State.useFree_F (s : State) (j : Reg) : (s.useFree).F j = s.F j := rfl
@[simp] theorem State.useFree_D (s : State) (j : Reg) : (s.useFree).D j = s.D j := rfl

/-! ## raise -/

@[simp] theorem State.raise_w (s : State) (x : Fault) : (s.raise x).w = s.w := rfl
@[simp] theorem State.raise_l (s : State) (x : Fault) : (s.raise x).l = s.l := rfl
@[simp] theorem State.raise_f (s : State) (x : Fault) : (s.raise x).f = s.f := rfl
@[simp] theorem State.raise_d (s : State) (x : Fault) : (s.raise x).d = s.d := rfl
@[simp] theorem State.raise_pc (s : State) (x : Fault) : (s.raise x).pc = s.pc := rfl
@[simp] theorem State.raise_flags (s : State) (x : Fault) : (s.raise x).flags = s.flags := rfl
@[simp] theorem State.raise_status (s : State) (x : Fault) : (s.raise x).status = .fault x := rfl
@[simp] theorem State.raise_mem (s : State) (x : Fault) : (s.raise x).mem = s.mem := rfl
@[simp] theorem State.raise_params (s : State) (x : Fault) : (s.raise x).params = s.params := rfl
@[simp] theorem State.raise_freeCount (s : State) (x : Fault) : (s.raise x).freeCount = s.freeCount := rfl
@[simp] theorem State.raise_W (s : State) (x : Fault) (j : Reg) : (s.raise x).W j = s.W j := rfl
@[simp] theorem State.raise_L (s : State) (x : Fault) (j : Reg) : (s.raise x).L j = s.L j := rfl
@[simp] theorem State.raise_F (s : State) (x : Fault) (j : Reg) : (s.raise x).F j = s.F j := rfl
@[simp] theorem State.raise_D (s : State) (x : Fault) (j : Reg) : (s.raise x).D j = s.D j := rfl

/-! ## setG -/

@[simp] theorem State.setG_pc (s : State) (g : GReg) (v : Nat) : (s.setG g v).pc = s.pc := by
  unfold State.setG; split <;> rfl
@[simp] theorem State.setG_flags (s : State) (g : GReg) (v : Nat) : (s.setG g v).flags = s.flags := by
  unfold State.setG; split <;> rfl
@[simp] theorem State.setG_status (s : State) (g : GReg) (v : Nat) : (s.setG g v).status = s.status := by
  unfold State.setG; split <;> rfl
@[simp] theorem State.setG_mem (s : State) (g : GReg) (v : Nat) : (s.setG g v).mem = s.mem := by
  unfold State.setG; split <;> rfl
@[simp] theorem State.setG_params (s : State) (g : GReg) (v : Nat) : (s.setG g v).params = s.params := by
  unfold State.setG; split <;> rfl
@[simp] theorem State.setG_freeCount (s : State) (g : GReg) (v : Nat) : (s.setG g v).freeCount = s.freeCount := by
  unfold State.setG; split <;> rfl

/-- The write of a general register is read back, truncated to the register (10_state.md R25). -/
@[simp] theorem State.setG_G_self (s : State) (g : GReg) (v : Nat) :
    (s.setG g v).G g = v % 2 ^ (8 * g.file.size) := by
  rcases g with ⟨file, k⟩
  cases file <;> simp [State.setG, State.G, RegFile.size]

/-- The write of a general register leaves the other thirty-one as they were (10_state.md R24). -/
theorem State.setG_G_other (s : State) (g h : GReg) (v : Nat) (ne : g ≠ h) : (s.setG g v).G h = s.G h := by
  rcases g with ⟨file, k⟩
  rcases h with ⟨file', k'⟩
  have hk : file = file' → k ≠ k' := fun e e' => ne (by rw [e, e'])
  cases file <;> cases file' <;> simp [State.setG, State.G, hk]

/-- The value of a general register fits it (10_state.md R25). -/
theorem State.G_lt (s : State) (g : GReg) : s.G g < 2 ^ (8 * g.file.size) := by
  rcases g with ⟨file, k⟩
  cases file <;> exact BitVec.isLt _

end Sys2Proof.Machine
end

