-- ==== Sys2Proof/Laws/Ops.lean ====
section
/-! SUPPORT. For each shared operation over memory, the stack and the end of an instruction, one lemma that says
everything it can answer. -/

namespace Sys2Proof.Machine

/-! ## Memory -/

/-- A read answers the number at the address, exactly where its bytes are in memory. -/
theorem State.memRead_eq_ok {s : State} {a : Long} {n v : Nat} :
    s.memRead a n = .ok v ↔ a.toNat + n ≤ s.params.memSize ∧ v = s.mem.readLE a.toNat n := by
  unfold State.memRead
  split
  · rename_i h
    simp [h, eq_comm]
  · rename_i h
    simp [h]

/-- A read raises MemoryBounds with its address, exactly where its bytes are not all in memory. -/
theorem State.memRead_eq_error {s : State} {a : Long} {n : Nat} {x : Fault} :
    s.memRead a n = .error x ↔ s.params.memSize < a.toNat + n ∧ x = .memoryBounds a.toNat := by
  unfold State.memRead
  split
  · rename_i h
    simp; omega
  · rename_i h
    simp only [Except.error.injEq, eq_comm, iff_and_self]
    omega

/-- A write stores the number, exactly where its bytes are in memory. -/
theorem State.memWrite_eq_ok {s t : State} {a : Long} {n v : Nat} :
    s.memWrite a n v = .ok t ↔
      a.toNat + n ≤ s.params.memSize ∧ t = s.setMem (s.mem.writeLE a.toNat n v) := by
  unfold State.memWrite
  split
  · rename_i h
    simp [h, eq_comm]
  · rename_i h
    simp [h]

/-- A write raises MemoryBounds with its address, exactly where its bytes are not all in memory. -/
theorem State.memWrite_eq_error {s : State} {a : Long} {n v : Nat} {x : Fault} :
    s.memWrite a n v = .error x ↔ s.params.memSize < a.toNat + n ∧ x = .memoryBounds a.toNat := by
  unfold State.memWrite
  split
  · rename_i h
    simp; omega
  · rename_i h
    simp only [Except.error.injEq, eq_comm, iff_and_self]
    omega

/-! ## Sequencing -/

/-- What two operations in sequence answer. -/
theorem bind_eq_ok {α β : Type} {x : Except Fault α} {f : α → Except Fault β} {b : β} :
    x >>= f = .ok b ↔ ∃ a, x = .ok a ∧ f a = .ok b := by
  cases x <;> simp [bind, Except.bind]

/-- Two operations in sequence raise what the first of them raises, or the second after it. -/
theorem bind_eq_error {α β : Type} {x : Except Fault α} {f : α → Except Fault β} {e : Fault} :
    x >>= f = .error e ↔ x = .error e ∨ ∃ a, x = .ok a ∧ f a = .error e := by
  cases x <;> simp [bind, Except.bind]

/-! ## The stack -/

/-- A push stores at sp - n and leaves sp there. -/
theorem State.push_eq_ok {s t : State} {n v : Nat} :
    s.push n v = .ok t ↔
      (s.sp - BitVec.ofNat 32 n).toNat + n ≤ s.params.memSize ∧
      t = (s.setMem (s.mem.writeLE (s.sp - BitVec.ofNat 32 n).toNat n v)).setSp (s.sp - BitVec.ofNat 32 n) := by
  unfold State.push
  rw [bind_eq_ok]
  constructor
  · rintro ⟨u, h, e⟩
    obtain ⟨h1, rfl⟩ := State.memWrite_eq_ok.1 h
    exact ⟨h1, (Except.ok.inj e).symm⟩
  · rintro ⟨h1, rfl⟩
    exact ⟨_, State.memWrite_eq_ok.2 ⟨h1, rfl⟩, rfl⟩

/-- The top of the stack is read at sp. -/
theorem State.top_eq_ok {s : State} {n v : Nat} :
    s.top n = .ok v ↔ s.sp.toNat + n ≤ s.params.memSize ∧ v = s.mem.readLE s.sp.toNat n :=
  State.memRead_eq_ok

/-- A pop into a register writes the register, then moves the sp that results. -/
theorem State.popReg_eq_ok {s t : State} {g : GReg} :
    s.popReg g = .ok t ↔
      s.sp.toNat + g.file.size ≤ s.params.memSize ∧
      t = (s.setG g (s.mem.readLE s.sp.toNat g.file.size)).drop g.file.size := by
  unfold State.popReg
  rw [bind_eq_ok]
  constructor
  · rintro ⟨v, h, e⟩
    obtain ⟨h1, rfl⟩ := State.top_eq_ok.1 h
    exact ⟨h1, (Except.ok.inj e).symm⟩
  · rintro ⟨h1, rfl⟩
    exact ⟨_, State.top_eq_ok.2 ⟨h1, rfl⟩, rfl⟩

/-- A register whose mask bit is off is not pushed. -/
theorem pushEach_off {bmsk : Long} {n : Nat} {ns : List Nat} {s : State} (h : bmsk.getLsbD n = false) :
    pushEach bmsk (n :: ns) s = pushEach bmsk ns s := by
  simp [pushEach, h]

/-- A register whose mask bit is on is pushed, then the others. -/
theorem pushEach_on {bmsk : Long} {n : Nat} {ns : List Nat} {s t : State} (h : bmsk.getLsbD n = true) :
    pushEach bmsk (n :: ns) s = .ok t ↔
      ∃ u, s.push (GReg.ofNumber n).file.size (s.G (GReg.ofNumber n)) = .ok u ∧ pushEach bmsk ns u = .ok t := by
  simp only [pushEach, h, if_true]
  exact bind_eq_ok

/-- A register whose mask bit is off is not popped. -/
theorem popEach_off {bmsk : Long} {n : Nat} {ns : List Nat} {s : State} (h : bmsk.getLsbD n = false) :
    popEach bmsk (n :: ns) s = popEach bmsk ns s := by
  simp [popEach, h]

/-- A register whose mask bit is on is popped, then the others. -/
theorem popEach_on {bmsk : Long} {n : Nat} {ns : List Nat} {s t : State} (h : bmsk.getLsbD n = true) :
    popEach bmsk (n :: ns) s = .ok t ↔
      ∃ u, s.popReg (GReg.ofNumber n) = .ok u ∧ popEach bmsk ns u = .ok t := by
  simp only [popEach, h, if_true]
  exact bind_eq_ok

/-- What enter does, where it does not fault. -/
theorem State.enterFrame_eq_ok {s t : State} {stkc : Byte} :
    s.enterFrame stkc = .ok t ↔
      (s.sp - 4).toNat + 4 ≤ s.params.memSize ∧
      t = ((s.setMem (s.mem.writeLE (s.sp - 4).toNat 4 s.fp.toNat)).setFp (s.sp - 4)).setSp
        (s.sp - 4 - stackBytes stkc) := by
  unfold State.enterFrame
  rw [bind_eq_ok]
  constructor
  · rintro ⟨u, h, e⟩
    obtain ⟨h1, rfl⟩ := State.memWrite_eq_ok.1 h
    exact ⟨h1, (Except.ok.inj e).symm⟩
  · rintro ⟨h1, rfl⟩
    exact ⟨_, State.memWrite_eq_ok.2 ⟨h1, rfl⟩, rfl⟩

/-- What ret does, where it does not fault. -/
theorem State.returnFrame_eq_ok {s t : State} {stkc : Byte} :
    s.returnFrame stkc = .ok t ↔
      s.sp.toNat + 4 ≤ s.params.memSize ∧
      t = (s.setSp (s.sp + 4 + stackBytes stkc)).setPc (BitVec.ofNat 32 (s.mem.readLE s.sp.toNat 4)) := by
  unfold State.returnFrame
  rw [bind_eq_ok]
  constructor
  · rintro ⟨v, h, e⟩
    obtain ⟨h1, rfl⟩ := State.top_eq_ok.1 h
    exact ⟨h1, (Except.ok.inj e).symm⟩
  · rintro ⟨h1, rfl⟩
    exact ⟨_, State.top_eq_ok.2 ⟨h1, rfl⟩, rfl⟩

/-- What leave does, where it does not fault. -/
theorem State.leaveFrame_eq_ok {s t : State} {stkc : Byte} :
    s.leaveFrame stkc = .ok t ↔
      s.fp.toNat + 4 ≤ s.params.memSize ∧ (s.fp + 4).toNat + 4 ≤ s.params.memSize ∧
      t = ((s.setFp (BitVec.ofNat 32 (s.mem.readLE s.fp.toNat 4))).setSp (s.fp + 8 + stackBytes stkc)).setPc
        (BitVec.ofNat 32 (s.mem.readLE (s.fp + 4).toNat 4)) := by
  unfold State.leaveFrame
  simp only [bind_eq_ok]
  constructor
  · rintro ⟨f, hf, p, hp, e⟩
    obtain ⟨h1, rfl⟩ := State.memRead_eq_ok.1 hf
    obtain ⟨h2, rfl⟩ := State.memRead_eq_ok.1 hp
    exact ⟨h1, h2, (Except.ok.inj e).symm⟩
  · rintro ⟨h1, h2, rfl⟩
    exact ⟨_, State.memRead_eq_ok.2 ⟨h1, rfl⟩, _, State.memRead_eq_ok.2 ⟨h2, rfl⟩, rfl⟩

/-- What a taken call does, where it does not fault. -/
theorem State.callTo_eq_ok {s t : State} {npc target : Long} :
    s.callTo npc target = .ok t ↔ ∃ u, s.push 4 npc.toNat = .ok u ∧ t = u.setPc target := by
  unfold State.callTo
  rw [bind_eq_ok]
  exact exists_congr fun u => and_congr_right fun _ => ⟨fun h => (Except.ok.inj h).symm, fun h => h ▸ rfl⟩

/-! ## Faults and the end of an instruction -/

/-- Every instruction answers a next state: its result, or the state it started in with the fault. -/
theorem finish_eq_next {s t : State} {r : Result} :
    finish s r = .next t ↔ r = .ok t ∨ ∃ x, r = .error x ∧ t = s.raise x := by
  cases r <;> simp [finish, eq_comm]

/-- No instruction answers the outcome `fault`. -/
theorem finish_ne_fault {s : State} {r : Result} {x : Fault} : finish s r ≠ .fault x := by
  cases r <;> simp [finish]

/-- No instruction is refused. -/
theorem finish_ne_refused {s : State} {r : Result} {x : Refusal} : finish s r ≠ .refused x := by
  cases r <;> simp [finish]

/-- The end of an instruction that does not transfer control. -/
theorem complete_eq_next {s t : State} {n : Nat} {r : Result} :
    complete s n r = .next t ↔
      (∃ u, r = .ok u ∧ t = u.setPc (s.npc n)) ∨ ∃ x, r = .error x ∧ t = s.raise x := by
  cases r <;> simp [complete, finish, Except.map, eq_comm]

@[simp] theorem finish_ok (s t : State) : finish s (.ok t) = .next t := rfl
@[simp] theorem finish_error (s : State) (x : Fault) : finish s (.error x) = .next (s.raise x) := rfl
@[simp] theorem complete_ok (s t : State) (n : Nat) : complete s n (.ok t) = .next (t.setPc (s.npc n)) := rfl
@[simp] theorem complete_error (s : State) (n : Nat) (x : Fault) : complete s n (.error x) = .next (s.raise x) := rfl

/-! ## Fetch -/

/-- How many bytes are fetched. -/
@[simp] theorem State.fetchBytes_length (s : State) :
    s.fetchBytes.length = min maxLength (s.params.memSize - s.pc.toNat) := by
  simp [State.fetchBytes]

/-- The fetched bytes are those of memory. -/
theorem State.fetchBytes_getElem (s : State) (k : Nat) (h : k < s.fetchBytes.length) :
    s.fetchBytes[k] = s.mem.read (s.pc.toNat + k) := by
  simp [State.fetchBytes]

end Sys2Proof.Machine
end

