-- ==== Sys2Proof/Laws/Operands.lean ====
section
/-! SUPPORT. What each form of operand denotes, reads and stores, one lemma per form. -/

namespace Sys2Proof

open Sys2Proof.Machine

/-! ## q-operands -/

section
variable {n : Nat} (t : ImmTable n) (s : State)

@[simp] theorem QOp.kind_reg (k : Reg) : (QOp.reg k : QOp n).kind t s = .reg k := rfl
@[simp] theorem QOp.kind_base (k : Reg) : (QOp.base k : QOp n).kind t s = .mem (s.L k) := rfl
@[simp] theorem QOp.kind_bd2 (k : Reg) (d : BitVec 16) :
    (QOp.bd2 k d : QOp n).kind t s = .mem (s.L k + d.signExtend 32) := rfl
@[simp] theorem QOp.kind_mema (a : Long) : (QOp.mema a : QOp n).kind t s = .mem a := rfl
@[simp] theorem QOp.kind_immMinus1 : (QOp.immMinus1 : QOp n).kind t s = .imm t.minus1 := rfl
@[simp] theorem QOp.kind_imm0 : (QOp.imm0 : QOp n).kind t s = .imm t.zero := rfl
@[simp] theorem QOp.kind_imm1 : (QOp.imm1 : QOp n).kind t s = .imm t.plus1 := rfl
@[simp] theorem QOp.kind_immv (v : BitVec n) : (QOp.immv v).kind t s = .imm v := rfl
@[simp] theorem QOp.kind_imm2 (h : BitVec 16) : (QOp.imm2 h : QOp n).kind t s = .imm (h.signExtend n) := rfl
@[simp] theorem QOp.kind_x (m : XMode) : (QOp.x m : QOp n).kind t s = .mem (m.ea s) := rfl

/-- A legal address operand is a register or memory (30_encoding.md R97). -/
theorem QOp.kind_of_address (q : QOp n) (h : q.legal .address = true) :
    (∃ k, q = .reg k ∧ q.kind t s = .reg k) ∨ ∃ a, q.kind t s = .mem a := by
  cases q <;> simp_all [QOp.legal, QOp.isImm]

end

/-- A register operand is the register. -/
@[simp] theorem QKind.value_reg {n : Nat} (regs : Reg → BitVec n) (s : State) (k : Reg) :
    (QKind.reg k).value regs s = .ok (regs k) := rfl

/-- An immediate is itself. -/
@[simp] theorem QKind.value_imm {n : Nat} (regs : Reg → BitVec n) (s : State) (v : BitVec n) :
    (QKind.imm v).value regs s = .ok v := rfl

/-- A memory operand is the number at its address, where its bytes are in memory. -/
theorem QKind.value_mem_eq_ok {n : Nat} {regs : Reg → BitVec n} {s : State} {a : Long} {v : BitVec n} :
    (QKind.mem a).value regs s = .ok v ↔
      a.toNat + n / 8 ≤ s.params.memSize ∧ v = BitVec.ofNat n (s.mem.readLE a.toNat (n / 8)) := by
  simp only [QKind.value, State.memRead]
  split
  · rename_i h
    simp [Except.map, h, eq_comm]
  · rename_i h
    simp [Except.map, h]

/-- A store to a register. -/
@[simp] theorem QKind.store_reg {n : Nat} (setReg : Reg → BitVec n → State) (v : BitVec n) (s : State) (k : Reg) :
    (QKind.reg k).store setReg v s = .ok (setReg k v) := rfl

/-- No store goes to an immediate. -/
@[simp] theorem QKind.store_imm {n : Nat} (setReg : Reg → BitVec n → State) (v u : BitVec n) (s : State) :
    (QKind.imm u).store setReg v s = .error (.reservedEncoding s.pc) := rfl

/-- A store to memory. -/
@[simp] theorem QKind.store_mem {n : Nat} (setReg : Reg → BitVec n → State) (v : BitVec n) (s : State) (a : Long) :
    (QKind.mem a).store setReg v s = s.memWrite a (n / 8) v.toNat := rfl

/-! ## m-operands -/

@[simp] theorem MOp.read_mmema (n : SizeCode) (s : State) (a : Long) :
    (MOp.mmema a).read n s = s.memRead a n.bytes := rfl
@[simp] theorem MOp.read_mreg (n : SizeCode) (s : State) (g : GReg) : (MOp.mreg g).read n s = g.groupRead n s := rfl
@[simp] theorem MOp.read_x (n : SizeCode) (s : State) (m : XMode) :
    (MOp.x m).read n s = s.memRead (m.ea s) n.bytes := rfl
@[simp] theorem MOp.write_mmema (n : SizeCode) (v : Nat) (s : State) (a : Long) :
    (MOp.mmema a).write n v s = s.memWrite a n.bytes v := rfl
@[simp] theorem MOp.write_mreg (n : SizeCode) (v : Nat) (s : State) (g : GReg) :
    (MOp.mreg g).write n v s = g.groupWrite n v s := rfl
@[simp] theorem MOp.write_x (n : SizeCode) (v : Nat) (s : State) (m : XMode) :
    (MOp.x m).write n v s = s.memWrite (m.ea s) n.bytes v := rfl

/-- A group write changes registers of one file and nothing else. -/
theorem GReg.setGroup_frame (g : GReg) (j c v : Nat) (s : State) :
    (g.setGroup j c v s).mem = s.mem ∧ (g.setGroup j c v s).params = s.params ∧
    (g.setGroup j c v s).flags = s.flags ∧ (g.setGroup j c v s).status = s.status ∧
    (g.setGroup j c v s).pc = s.pc ∧ (g.setGroup j c v s).freeCount = s.freeCount := by
  induction c generalizing j v s with
  | zero => simp [GReg.setGroup]
  | succ c ih => simpa [GReg.setGroup] using ih (j + 1) (v / 2 ^ (8 * g.file.size)) (s.setG (g.nth j) v)

/-- A group that fits is written, and nothing but registers changes. -/
theorem GReg.groupWrite_frame (g : GReg) (n : SizeCode) (v : Nat) (s t : State) (h : g.groupWrite n v s = .ok t) :
    t.mem = s.mem ∧ t.params = s.params ∧ t.flags = s.flags ∧ t.status = s.status ∧ t.pc = s.pc ∧
    t.freeCount = s.freeCount := by
  unfold GReg.groupWrite at h
  split at h
  · split at h
    · obtain rfl := Except.ok.inj h
      simp
    · obtain rfl := Except.ok.inj h
      exact GReg.setGroup_frame _ _ _ _ _
  · cases h

/-! ## Jump targets -/

@[simp] theorem JOp.target_jregi (s : State) (npc : Long) (k : Reg) : (JOp.jregi k).target npc s = .ok (s.L k) := rfl
@[simp] theorem JOp.target_pcrp (s : State) (npc : Long) (off : BitVec 16) :
    (JOp.pcrp off).target npc s = .ok (npc + 2 * off.setWidth 32) := rfl
@[simp] theorem JOp.target_pcrm (s : State) (npc : Long) (off : BitVec 16) :
    (JOp.pcrm off).target npc s = .ok (npc - 2 * off.setWidth 32) := rfl
@[simp] theorem JOp.target_jmema (s : State) (npc a : Long) : (JOp.jmema a).target npc s = .ok a := rfl

/-! ## Results that may be free values -/

namespace Machine

/-- A floating result writes its register, and counts a free value where it is a NaN. -/
theorem State.putF_frame (s : State) (k : Reg) (v : Option Nat) :
    ∃ x c, s.putF k v = { s with f := s.f.set k.val x, freeCount := c } := by
  cases v <;> exact ⟨_, _, rfl⟩

/-- A floating result writes its register, and counts a free value where it is a NaN. -/
theorem State.putD_frame (s : State) (k : Reg) (v : Option Nat) :
    ∃ x c, s.putD k v = { s with d := s.d.set k.val x, freeCount := c } := by
  cases v <;> exact ⟨_, _, rfl⟩

/-- A truncated result writes its register, and counts a free value where the spec gives none. -/
theorem State.putTrunc_frame (s : State) (k : Reg) (lo hi : Int) (v : Option Int) :
    ∃ x c, s.putTrunc k lo hi v = { s with l := s.l.set k.val x, freeCount := c } := by
  unfold State.putTrunc
  split
  · split <;> exact ⟨_, _, rfl⟩
  · exact ⟨_, _, rfl⟩

/-- A floating compare writes one of its three patterns (44_convert_compare.md R320). -/
theorem State.setOrdering_frame (s : State) (o : Option Ordering) :
    ∃ x c, (x = 2 ∨ x = 4 ∨ x = 8) ∧ s.setOrdering o = { s with flags := x, freeCount := c } := by
  have h : ∀ y : Ordering, orderingFlags y = 2 ∨ orderingFlags y = 4 ∨ orderingFlags y = 8 := by decide
  cases o <;> exact ⟨_, _, h _, rfl⟩

/-- A fixed-point compare writes one of five patterns (44_convert_compare.md R320). -/
theorem icmp_patterns {n : Nat} (a b : BitVec n) :
    icmp a b = 4 ∨ icmp a b = 24 ∨ icmp a b = 18 ∨ icmp a b = 9 ∨ icmp a b = 3 := by
  unfold icmp
  split
  · simp
  · split <;> split <;> decide

end Machine

end Sys2Proof
end

