-- ==== Sys2Proof/Laws/PerInstr.lean ====
section
/-! SUPPORT. Statements per instruction. `EncodingLength`: the encoder writes exactly the length of the instruction
(30_encoding.md R82), an even number of bytes from 2 to 10. -/

namespace Sys2Proof

/-! ## The lengths of the parts -/

@[simp] theorem leBytes_length (n v : Nat) : (leBytes n v).length = n := by
  induction n generalizing v with
  | zero => rfl
  | succ n ih => simp [leBytes, ih]

theorem encodeX_length (m : XMode) : (encodeX m).length = m.bytes := by
  cases m <;> simp [encodeX, XMode.bytes]

theorem encodeQ_length {n : Nat} (q : QOp n) (r : Nat) : (encodeQ q r).length = 1 + q.extraBytes := by
  cases q <;> simp [encodeQ, QOp.extraBytes, encodeX_length] <;> omega

theorem encodeM_length (p : Params) (n : SizeCode) (r : GReg) (m : MOp) :
    (encodeM p n r m).length = 1 + m.extraBytes := by
  cases m <;> simp [encodeM, MOp.extraBytes, encodeX_length]
  omega

theorem encodeJ_length (c : Cond) (j : JOp) : (encodeJ c j).length = 1 + j.extraBytes := by
  cases j <;> simp [encodeJ, JOp.extraBytes]

/-- The bytes after the two x-bytes are even in number, six at most. -/
theorem XMode.bytes_bound (m : XMode) : m.bytes % 2 = 0 ∧ m.bytes ≤ 6 := by
  cases m <;> simp [XMode.bytes]

/-- The bytes after a qr-byte are even in number, eight at most. -/
theorem QOp.extraBytes_bound {n : Nat} (q : QOp n) (h : n = 8 ∨ n = 16 ∨ n = 32 ∨ n = 64) :
    q.extraBytes % 2 = 0 ∧ q.extraBytes ≤ 8 := by
  cases q with
  | x m => have := m.bytes_bound; simp only [QOp.extraBytes]; omega
  | immv v => rcases h with rfl | rfl | rfl | rfl <;> simp [QOp.extraBytes, immBytes]
  | _ => simp [QOp.extraBytes]

/-- The bytes after an mr-byte are even in number, six at most. -/
theorem MOp.extraBytes_bound (m : MOp) : m.extraBytes % 2 = 0 ∧ m.extraBytes ≤ 6 := by
  cases m with
  | x m => have := m.bytes_bound; simp only [MOp.extraBytes]; omega
  | _ => simp [MOp.extraBytes]

/-- The bytes after an ij-byte are even in number, four at most. -/
theorem JOp.extraBytes_bound (j : JOp) : j.extraBytes % 2 = 0 ∧ j.extraBytes ≤ 4 := by
  cases j <;> simp [JOp.extraBytes]

namespace Laws.EncodingLength

/-- The encoder writes exactly as many bytes as the instruction is long, an even number from 2 to 10. -/
def Statement (i : Instr) : Prop :=
  (∀ p, (encode p i).length = i.length) ∧ i.length % 2 = 0 ∧ 2 ≤ i.length ∧ i.length ≤ 10

theorem of_q {n : Nat} (i : Instr) (q : QOp n) (r : Nat) (hn : n = 8 ∨ n = 16 ∨ n = 32 ∨ n = 64)
    (he : ∀ p, encodeOperands p i = encodeQ q r) (hl : i.length = 2 + q.extraBytes) : Statement i := by
  have h := q.extraBytes_bound hn
  refine ⟨fun p => ?_, ?_⟩
  · rw [encode, List.length_cons, he, encodeQ_length, hl]; omega
  · omega

theorem of_m (i : Instr) (n : SizeCode) (r : GReg) (m : MOp)
    (he : ∀ p, encodeOperands p i = encodeM p n r m) (hl : i.length = 2 + m.extraBytes) : Statement i := by
  have h := m.extraBytes_bound
  refine ⟨fun p => ?_, ?_⟩
  · rw [encode, List.length_cons, he, encodeM_length, hl]; omega
  · omega

theorem of_j (i : Instr) (c : Cond) (j : JOp)
    (he : ∀ p, encodeOperands p i = encodeJ c j) (hl : i.length = 2 + j.extraBytes) : Statement i := by
  have h := j.extraBytes_bound
  refine ⟨fun p => ?_, ?_⟩
  · rw [encode, List.length_cons, he, encodeJ_length, hl]; omega
  · omega

theorem absd (q : QOp 64) (r : Reg) : Statement (.absd q r) := of_q _ q r.val (by decide) (fun _ => rfl) rfl
theorem absf (q : QOp 32) (r : Reg) : Statement (.absf q r) := of_q _ q r.val (by decide) (fun _ => rfl) rfl
theorem absl (q : QOp 32) (r : Reg) : Statement (.absl q r) := of_q _ q r.val (by decide) (fun _ => rfl) rfl
theorem absw (q : QOp 16) (r : Reg) : Statement (.absw q r) := of_q _ q r.val (by decide) (fun _ => rfl) rfl
theorem addcl (q : QOp 32) (r : Reg) : Statement (.addcl q r) := of_q _ q r.val (by decide) (fun _ => rfl) rfl
theorem addd (q : QOp 64) (r : Reg) : Statement (.addd q r) := of_q _ q r.val (by decide) (fun _ => rfl) rfl
theorem addf (q : QOp 32) (r : Reg) : Statement (.addf q r) := of_q _ q r.val (by decide) (fun _ => rfl) rfl
theorem addl (q : QOp 32) (r : Reg) : Statement (.addl q r) := of_q _ q r.val (by decide) (fun _ => rfl) rfl
theorem addswl (q : QOp 16) (r : Reg) : Statement (.addswl q r) := of_q _ q r.val (by decide) (fun _ => rfl) rfl
theorem adduwl (q : QOp 16) (r : Reg) : Statement (.adduwl q r) := of_q _ q r.val (by decide) (fun _ => rfl) rfl
theorem addw (q : QOp 16) (r : Reg) : Statement (.addw q r) := of_q _ q r.val (by decide) (fun _ => rfl) rfl
theorem andl (q : QOp 32) (r : Reg) : Statement (.andl q r) := of_q _ q r.val (by decide) (fun _ => rfl) rfl
theorem andw (q : QOp 16) (r : Reg) : Statement (.andw q r) := of_q _ q r.val (by decide) (fun _ => rfl) rfl
theorem call (c : Cond) (j : JOp) : Statement (.call c j) := of_j _ c j (fun _ => rfl) rfl
theorem callb (off : BitVec 24) : Statement (.callb off) := ⟨fun _ => rfl, by simp [Instr.length]⟩
theorem callf (off : BitVec 24) : Statement (.callf off) := ⟨fun _ => rfl, by simp [Instr.length]⟩
theorem cmpd (q : QOp 64) (r : Reg) : Statement (.cmpd q r) := of_q _ q r.val (by decide) (fun _ => rfl) rfl
theorem cmpf (q : QOp 32) (r : Reg) : Statement (.cmpf q r) := of_q _ q r.val (by decide) (fun _ => rfl) rfl
theorem cmpl (q : QOp 32) (r : Reg) : Statement (.cmpl q r) := of_q _ q r.val (by decide) (fun _ => rfl) rfl
theorem cmplb (q : QOp 8) (r : Reg) : Statement (.cmplb q r) := of_q _ q r.val (by decide) (fun _ => rfl) rfl
theorem cmpw (q : QOp 16) (r : Reg) : Statement (.cmpw q r) := of_q _ q r.val (by decide) (fun _ => rfl) rfl
theorem cmpwb (q : QOp 8) (r : Reg) : Statement (.cmpwb q r) := of_q _ q r.val (by decide) (fun _ => rfl) rfl
theorem cvtbsl (q : QOp 8) (r : Reg) : Statement (.cvtbsl q r) := of_q _ q r.val (by decide) (fun _ => rfl) rfl
theorem cvtbsw (q : QOp 8) (r : Reg) : Statement (.cvtbsw q r) := of_q _ q r.val (by decide) (fun _ => rfl) rfl
theorem cvtbzl (q : QOp 8) (r : Reg) : Statement (.cvtbzl q r) := of_q _ q r.val (by decide) (fun _ => rfl) rfl
theorem cvtbzw (q : QOp 8) (r : Reg) : Statement (.cvtbzw q r) := of_q _ q r.val (by decide) (fun _ => rfl) rfl
theorem cvtdf (q : QOp 64) (r : Reg) : Statement (.cvtdf q r) := of_q _ q r.val (by decide) (fun _ => rfl) rfl
theorem cvtfd (q : QOp 32) (r : Reg) : Statement (.cvtfd q r) := of_q _ q r.val (by decide) (fun _ => rfl) rfl
theorem cvtsld (q : QOp 32) (r : Reg) : Statement (.cvtsld q r) := of_q _ q r.val (by decide) (fun _ => rfl) rfl
theorem cvtslf (q : QOp 32) (r : Reg) : Statement (.cvtslf q r) := of_q _ q r.val (by decide) (fun _ => rfl) rfl
theorem cvttdsl (q : QOp 64) (r : Reg) : Statement (.cvttdsl q r) := of_q _ q r.val (by decide) (fun _ => rfl) rfl
theorem cvttdul (q : QOp 64) (r : Reg) : Statement (.cvttdul q r) := of_q _ q r.val (by decide) (fun _ => rfl) rfl
theorem cvttfsl (q : QOp 32) (r : Reg) : Statement (.cvttfsl q r) := of_q _ q r.val (by decide) (fun _ => rfl) rfl
theorem cvttful (q : QOp 32) (r : Reg) : Statement (.cvttful q r) := of_q _ q r.val (by decide) (fun _ => rfl) rfl
theorem cvtuld (q : QOp 32) (r : Reg) : Statement (.cvtuld q r) := of_q _ q r.val (by decide) (fun _ => rfl) rfl
theorem cvtulf (q : QOp 32) (r : Reg) : Statement (.cvtulf q r) := of_q _ q r.val (by decide) (fun _ => rfl) rfl
theorem cvtwsl (q : QOp 16) (r : Reg) : Statement (.cvtwsl q r) := of_q _ q r.val (by decide) (fun _ => rfl) rfl
theorem cvtwzl (q : QOp 16) (r : Reg) : Statement (.cvtwzl q r) := of_q _ q r.val (by decide) (fun _ => rfl) rfl
theorem divd (q : QOp 64) (r : Reg) : Statement (.divd q r) := of_q _ q r.val (by decide) (fun _ => rfl) rfl
theorem divf (q : QOp 32) (r : Reg) : Statement (.divf q r) := of_q _ q r.val (by decide) (fun _ => rfl) rfl
theorem divrsl (q : QOp 32) (r : Reg) : Statement (.divrsl q r) := of_q _ q r.val (by decide) (fun _ => rfl) rfl
theorem divrslw (q : QOp 16) (r : Reg) : Statement (.divrslw q r) := of_q _ q r.val (by decide) (fun _ => rfl) rfl
theorem divrsw (q : QOp 16) (r : Reg) : Statement (.divrsw q r) := of_q _ q r.val (by decide) (fun _ => rfl) rfl
theorem divrul (q : QOp 32) (r : Reg) : Statement (.divrul q r) := of_q _ q r.val (by decide) (fun _ => rfl) rfl
theorem divrulw (q : QOp 16) (r : Reg) : Statement (.divrulw q r) := of_q _ q r.val (by decide) (fun _ => rfl) rfl
theorem divruw (q : QOp 16) (r : Reg) : Statement (.divruw q r) := of_q _ q r.val (by decide) (fun _ => rfl) rfl
theorem divsl (q : QOp 32) (r : Reg) : Statement (.divsl q r) := of_q _ q r.val (by decide) (fun _ => rfl) rfl
theorem divsw (q : QOp 16) (r : Reg) : Statement (.divsw q r) := of_q _ q r.val (by decide) (fun _ => rfl) rfl
theorem divul (q : QOp 32) (r : Reg) : Statement (.divul q r) := of_q _ q r.val (by decide) (fun _ => rfl) rfl
theorem divuw (q : QOp 16) (r : Reg) : Statement (.divuw q r) := of_q _ q r.val (by decide) (fun _ => rfl) rfl
theorem enter (stkc : Byte) : Statement (.enter stkc) := ⟨fun _ => rfl, by simp [Instr.length]⟩
theorem entersav (stkc : Byte) (bmsk : Long) : Statement (.entersav stkc bmsk) := ⟨fun _ => rfl, by simp [Instr.length]⟩
theorem gmov (n : SizeCode) (r : GReg) (m : MOp) : Statement (.gmov n r m) := of_m _ n r m (fun _ => rfl) rfl
theorem gsto (n : SizeCode) (r : GReg) (m : MOp) : Statement (.gsto n r m) := of_m _ n r m (fun _ => rfl) rfl
theorem halt : Statement .halt := ⟨fun _ => rfl, by simp [Instr.length]⟩
theorem jump (c : Cond) (j : JOp) : Statement (.jump c j) := of_j _ c j (fun _ => rfl) rfl
theorem jumpb (off : BitVec 24) : Statement (.jumpb off) := ⟨fun _ => rfl, by simp [Instr.length]⟩
theorem jumpf (off : BitVec 24) : Statement (.jumpf off) := ⟨fun _ => rfl, by simp [Instr.length]⟩
theorem leal (q : QOp 32) (r : Reg) : Statement (.leal q r) := of_q _ q r.val (by decide) (fun _ => rfl) rfl
theorem leave (stkc : Byte) : Statement (.leave stkc) := ⟨fun _ => rfl, by simp [Instr.length]⟩
theorem leaveres (stkc : Byte) (bmsk : Long) : Statement (.leaveres stkc bmsk) := ⟨fun _ => rfl, by simp [Instr.length]⟩
theorem movbl (q : QOp 8) (r : Reg) : Statement (.movbl q r) := of_q _ q r.val (by decide) (fun _ => rfl) rfl
theorem movbw (q : QOp 8) (r : Reg) : Statement (.movbw q r) := of_q _ q r.val (by decide) (fun _ => rfl) rfl
theorem movd (q : QOp 64) (r : Reg) : Statement (.movd q r) := of_q _ q r.val (by decide) (fun _ => rfl) rfl
theorem movf (q : QOp 32) (r : Reg) : Statement (.movf q r) := of_q _ q r.val (by decide) (fun _ => rfl) rfl
theorem movflags (q : QOp 16) : Statement (.movflags q) := of_q _ q 0 (by decide) (fun _ => rfl) rfl
theorem movl (q : QOp 32) (r : Reg) : Statement (.movl q r) := of_q _ q r.val (by decide) (fun _ => rfl) rfl
theorem movw (q : QOp 16) (r : Reg) : Statement (.movw q r) := of_q _ q r.val (by decide) (fun _ => rfl) rfl
theorem movwl (q : QOp 16) (r : Reg) : Statement (.movwl q r) := of_q _ q r.val (by decide) (fun _ => rfl) rfl
theorem muld (q : QOp 64) (r : Reg) : Statement (.muld q r) := of_q _ q r.val (by decide) (fun _ => rfl) rfl
theorem mulf (q : QOp 32) (r : Reg) : Statement (.mulf q r) := of_q _ q r.val (by decide) (fun _ => rfl) rfl
theorem mulsl (q : QOp 32) (r : Reg) : Statement (.mulsl q r) := of_q _ q r.val (by decide) (fun _ => rfl) rfl
theorem mulsw (q : QOp 16) (r : Reg) : Statement (.mulsw q r) := of_q _ q r.val (by decide) (fun _ => rfl) rfl
theorem mulswl (q : QOp 16) (r : Reg) : Statement (.mulswl q r) := of_q _ q r.val (by decide) (fun _ => rfl) rfl
theorem mulul (q : QOp 32) (r : Reg) : Statement (.mulul q r) := of_q _ q r.val (by decide) (fun _ => rfl) rfl
theorem muluw (q : QOp 16) (r : Reg) : Statement (.muluw q r) := of_q _ q r.val (by decide) (fun _ => rfl) rfl
theorem muluwl (q : QOp 16) (r : Reg) : Statement (.muluwl q r) := of_q _ q r.val (by decide) (fun _ => rfl) rfl
theorem negd (q : QOp 64) (r : Reg) : Statement (.negd q r) := of_q _ q r.val (by decide) (fun _ => rfl) rfl
theorem negf (q : QOp 32) (r : Reg) : Statement (.negf q r) := of_q _ q r.val (by decide) (fun _ => rfl) rfl
theorem negl (q : QOp 32) (r : Reg) : Statement (.negl q r) := of_q _ q r.val (by decide) (fun _ => rfl) rfl
theorem negw (q : QOp 16) (r : Reg) : Statement (.negw q r) := of_q _ q r.val (by decide) (fun _ => rfl) rfl
theorem nop : Statement .nop := ⟨fun _ => rfl, by simp [Instr.length]⟩
theorem notl (q : QOp 32) (r : Reg) : Statement (.notl q r) := of_q _ q r.val (by decide) (fun _ => rfl) rfl
theorem notw (q : QOp 16) (r : Reg) : Statement (.notw q r) := of_q _ q r.val (by decide) (fun _ => rfl) rfl
theorem orl (q : QOp 32) (r : Reg) : Statement (.orl q r) := of_q _ q r.val (by decide) (fun _ => rfl) rfl
theorem orw (q : QOp 16) (r : Reg) : Statement (.orw q r) := of_q _ q r.val (by decide) (fun _ => rfl) rfl
theorem popd (q : QOp 64) : Statement (.popd q) := of_q _ q 0 (by decide) (fun _ => rfl) rfl
theorem popf (q : QOp 32) : Statement (.popf q) := of_q _ q 0 (by decide) (fun _ => rfl) rfl
theorem popl (q : QOp 32) : Statement (.popl q) := of_q _ q 0 (by decide) (fun _ => rfl) rfl
theorem popregs (bmsk : Long) : Statement (.popregs bmsk) := ⟨fun _ => rfl, by simp [Instr.length]⟩
theorem popw (q : QOp 16) : Statement (.popw q) := of_q _ q 0 (by decide) (fun _ => rfl) rfl
theorem pushd (q : QOp 64) : Statement (.pushd q) := of_q _ q 0 (by decide) (fun _ => rfl) rfl
theorem pushf (q : QOp 32) : Statement (.pushf q) := of_q _ q 0 (by decide) (fun _ => rfl) rfl
theorem pushl (q : QOp 32) : Statement (.pushl q) := of_q _ q 0 (by decide) (fun _ => rfl) rfl
theorem pushregs (bmsk : Long) : Statement (.pushregs bmsk) := ⟨fun _ => rfl, by simp [Instr.length]⟩
theorem pushw (q : QOp 16) : Statement (.pushw q) := of_q _ q 0 (by decide) (fun _ => rfl) rfl
theorem remsl (q : QOp 32) (r : Reg) : Statement (.remsl q r) := of_q _ q r.val (by decide) (fun _ => rfl) rfl
theorem remsw (q : QOp 16) (r : Reg) : Statement (.remsw q r) := of_q _ q r.val (by decide) (fun _ => rfl) rfl
theorem remul (q : QOp 32) (r : Reg) : Statement (.remul q r) := of_q _ q r.val (by decide) (fun _ => rfl) rfl
theorem remuw (q : QOp 16) (r : Reg) : Statement (.remuw q r) := of_q _ q r.val (by decide) (fun _ => rfl) rfl
theorem ret (stkc : Byte) : Statement (.ret stkc) := ⟨fun _ => rfl, by simp [Instr.length]⟩
theorem rlil (sc : Fin 32) (r : Reg) : Statement (.rlil sc r) := ⟨fun _ => rfl, by simp [Instr.length]⟩
theorem rliw (sc : Fin 32) (r : Reg) : Statement (.rliw sc r) := ⟨fun _ => rfl, by simp [Instr.length]⟩
theorem rll (q : QOp 8) (r : Reg) : Statement (.rll q r) := of_q _ q r.val (by decide) (fun _ => rfl) rfl
theorem rlw (q : QOp 8) (r : Reg) : Statement (.rlw q r) := of_q _ q r.val (by decide) (fun _ => rfl) rfl
theorem rril (sc : Fin 32) (r : Reg) : Statement (.rril sc r) := ⟨fun _ => rfl, by simp [Instr.length]⟩
theorem rriw (sc : Fin 32) (r : Reg) : Statement (.rriw sc r) := ⟨fun _ => rfl, by simp [Instr.length]⟩
theorem rrl (q : QOp 8) (r : Reg) : Statement (.rrl q r) := of_q _ q r.val (by decide) (fun _ => rfl) rfl
theorem rrw (q : QOp 8) (r : Reg) : Statement (.rrw q r) := of_q _ q r.val (by decide) (fun _ => rfl) rfl
theorem set0l (q : QOp 32) (c : Cond) : Statement (.set0l q c) := of_q _ q (c.number % 8) (by decide) (fun _ => rfl) rfl
theorem set0w (q : QOp 16) (c : Cond) : Statement (.set0w q c) := of_q _ q (c.number % 8) (by decide) (fun _ => rfl) rfl
theorem set1l (q : QOp 32) (c : Cond) : Statement (.set1l q c) := of_q _ q (c.number % 8) (by decide) (fun _ => rfl) rfl
theorem set1w (q : QOp 16) (c : Cond) : Statement (.set1w q c) := of_q _ q (c.number % 8) (by decide) (fun _ => rfl) rfl
theorem slil (sc : Fin 32) (r : Reg) : Statement (.slil sc r) := ⟨fun _ => rfl, by simp [Instr.length]⟩
theorem sliw (sc : Fin 32) (r : Reg) : Statement (.sliw sc r) := ⟨fun _ => rfl, by simp [Instr.length]⟩
theorem sll (q : QOp 8) (r : Reg) : Statement (.sll q r) := of_q _ q r.val (by decide) (fun _ => rfl) rfl
theorem slw (q : QOp 8) (r : Reg) : Statement (.slw q r) := of_q _ q r.val (by decide) (fun _ => rfl) rfl
theorem sqrtd (q : QOp 64) (r : Reg) : Statement (.sqrtd q r) := of_q _ q r.val (by decide) (fun _ => rfl) rfl
theorem sqrtf (q : QOp 32) (r : Reg) : Statement (.sqrtf q r) := of_q _ q r.val (by decide) (fun _ => rfl) rfl
theorem srail (sc : Fin 32) (r : Reg) : Statement (.srail sc r) := ⟨fun _ => rfl, by simp [Instr.length]⟩
theorem sraiw (sc : Fin 32) (r : Reg) : Statement (.sraiw sc r) := ⟨fun _ => rfl, by simp [Instr.length]⟩
theorem sral (q : QOp 8) (r : Reg) : Statement (.sral q r) := of_q _ q r.val (by decide) (fun _ => rfl) rfl
theorem sraw (q : QOp 8) (r : Reg) : Statement (.sraw q r) := of_q _ q r.val (by decide) (fun _ => rfl) rfl
theorem srlil (sc : Fin 32) (r : Reg) : Statement (.srlil sc r) := ⟨fun _ => rfl, by simp [Instr.length]⟩
theorem srliw (sc : Fin 32) (r : Reg) : Statement (.srliw sc r) := ⟨fun _ => rfl, by simp [Instr.length]⟩
theorem srll (q : QOp 8) (r : Reg) : Statement (.srll q r) := of_q _ q r.val (by decide) (fun _ => rfl) rfl
theorem srlw (q : QOp 8) (r : Reg) : Statement (.srlw q r) := of_q _ q r.val (by decide) (fun _ => rfl) rfl
theorem stod (q : QOp 64) (r : Reg) : Statement (.stod q r) := of_q _ q r.val (by decide) (fun _ => rfl) rfl
theorem stof (q : QOp 32) (r : Reg) : Statement (.stof q r) := of_q _ q r.val (by decide) (fun _ => rfl) rfl
theorem stoflags (q : QOp 16) : Statement (.stoflags q) := of_q _ q 0 (by decide) (fun _ => rfl) rfl
theorem stol (q : QOp 32) (r : Reg) : Statement (.stol q r) := of_q _ q r.val (by decide) (fun _ => rfl) rfl
theorem stolb (q : QOp 8) (r : Reg) : Statement (.stolb q r) := of_q _ q r.val (by decide) (fun _ => rfl) rfl
theorem stolw (q : QOp 16) (r : Reg) : Statement (.stolw q r) := of_q _ q r.val (by decide) (fun _ => rfl) rfl
theorem stow (q : QOp 16) (r : Reg) : Statement (.stow q r) := of_q _ q r.val (by decide) (fun _ => rfl) rfl
theorem stowb (q : QOp 8) (r : Reg) : Statement (.stowb q r) := of_q _ q r.val (by decide) (fun _ => rfl) rfl
theorem subcl (q : QOp 32) (r : Reg) : Statement (.subcl q r) := of_q _ q r.val (by decide) (fun _ => rfl) rfl
theorem subd (q : QOp 64) (r : Reg) : Statement (.subd q r) := of_q _ q r.val (by decide) (fun _ => rfl) rfl
theorem subf (q : QOp 32) (r : Reg) : Statement (.subf q r) := of_q _ q r.val (by decide) (fun _ => rfl) rfl
theorem subl (q : QOp 32) (r : Reg) : Statement (.subl q r) := of_q _ q r.val (by decide) (fun _ => rfl) rfl
theorem subswl (q : QOp 16) (r : Reg) : Statement (.subswl q r) := of_q _ q r.val (by decide) (fun _ => rfl) rfl
theorem subuwl (q : QOp 16) (r : Reg) : Statement (.subuwl q r) := of_q _ q r.val (by decide) (fun _ => rfl) rfl
theorem subw (q : QOp 16) (r : Reg) : Statement (.subw q r) := of_q _ q r.val (by decide) (fun _ => rfl) rfl
theorem xorl (q : QOp 32) (r : Reg) : Statement (.xorl q r) := of_q _ q r.val (by decide) (fun _ => rfl) rfl
theorem xorw (q : QOp 16) (r : Reg) : Statement (.xorw q r) := of_q _ q r.val (by decide) (fun _ => rfl) rfl

end Laws.EncodingLength

end Sys2Proof
end

