-- ==== Sys2Proof/Tests/Slice0.lean ====
section
/-! SUPPORT. The model's own tests: ill-formed terms the checks refuse, words of the spec that decode to their
instructions, single steps with the results the spec gives, and, for each statement with hypotheses, values that meet
them. Expected results are the spec's (95_test_vectors.md, by the V number). -/

open Sys2Proof Sys2Proof.Machine

namespace Sys2Proof.Tests

set_option Elab.async false

/-- A small machine: 65536 bytes of memory, the pc at 0x100, sp at 0x3000, every register holding another number. -/
def small : State :=
  { State.reset with
    params := { defaultParams with memSize := 0x10000 }
    w := #v[0x10, 0x11, 0x12, 0x13, 0x14, 0x15, 0x16, 0x17]
    l := #v[0x20, 0x21, 0x22, 0x23, 0x24, 0x25, 0x26, 0x3000]
    f := #v[0x30, 0x31, 0x32, 0x33, 0x34, 0x35, 0x36, 0x37]
    d := #v[0x40, 0x41, 0x42, 0x43, 0x44, 0x45, 0x46, 0x47]
    pc := 0x100 }

/-- Whether one step of `s` with `code` at 0x100 leaves exactly the state `f` makes of it. -/
def runs (s : State) (code : List Byte) (f : State → State) : Bool :=
  match step (s.placeBytes 0x100 code) with
  | .next t => t == f (s.placeBytes 0x100 code)
  | .fault _ => false
  | .refused _ => false

/-- Whether words decode to the instructions beside them, under the default parameters. -/
def decodesTo (l : List (List Byte × Instr)) : Bool :=
  l.all fun (bs, i) =>
    match decode defaultParams bs with
    | .ok j => i == j
    | .error _ => false

/-! ## Well-formedness: an ill-formed term for each check -/

theorem test_wf_imm2_on_a_word_value : (Instr.movw (.imm2 3) 0).wellFormed = false := by decide
theorem test_wf_imm2_on_a_float_value : (Instr.movf (.imm2 3) 0).wellFormed = false := by decide
theorem test_wf_imm2_on_a_byte_value : (Instr.movbl (.imm2 3) 0).wellFormed = false := by decide
theorem test_wf_imm2_on_an_address : (Instr.popl (.imm2 3)).wellFormed = false := by decide
theorem test_wf_short_immediate_on_an_address : (Instr.popl .imm0).wellFormed = false := by decide
theorem test_wf_immediate_on_an_address : (Instr.stow (.immv 5) 0).wellFormed = false := by decide
theorem test_wf_set0_condition : (Instr.set0w (.reg 0) .gu).wellFormed = false := by decide
theorem test_wf_set1_condition : (Instr.set1l (.reg 0) .ge).wellFormed = false := by decide
theorem test_wf_destination_group : (Instr.gmov 3 ⟨.w, 5⟩ (.mmema 0)).wellFormed = false := by decide
theorem test_wf_source_group : (Instr.gmov 3 ⟨.d, 0⟩ (.mreg ⟨.l, 7⟩)).wellFormed = false := by decide
theorem test_wf_stored_group : (Instr.gsto 2 ⟨.w, 7⟩ (.mmema 0)).wellFormed = false := by decide
theorem test_wf_stored_to_group : (Instr.gsto 3 ⟨.d, 0⟩ (.mreg ⟨.f, 7⟩)).wellFormed = false := by decide
theorem test_wf_of_forms_the_spec_has :
    (Instr.movl (.imm2 3) 0).wellFormed && (Instr.set1l (.reg 0) .gu).wellFormed && (Instr.set0w (.reg 0) .ge).wellFormed &&
      (Instr.gmov 3 ⟨.w, 4⟩ (.mreg ⟨.l, 6⟩)).wellFormed = true := by decide

/-! ## Reset -/

theorem test_reset_is_a_start_state : State.reset = State.start defaultParams 0 [] zeroUnspecified := by decide +kernel

/-- The opcode table has the opcode byte 0x37 of halt in bits 15:8 (30_encoding.md R84, R131). -/
theorem test_table_word : decodeTableWord 16 0x3700 = some .halt := by decide +kernel

/-- The same word placed where reset fetches halts the machine at the next instruction. -/
theorem test_fetch_word :
    (match step (State.reset.withFetchWord 16 0x3700) with
      | .next t => t.status == .halted && t.pc == 2
      | .fault _ => false
      | .refused _ => false) = true := by
  decide +kernel

/-! ## Every constructor decodes from a word of 95_test_vectors.md -/

/-- V168, ... , V331. -/
theorem test_decode_1 : decodesTo
    [([0x01, 0x09], .absd (.reg 1) 1),
     ([0x02, 0x01], .absf (.reg 0) 1),
     ([0x03, 0x48], .absl (.base 1) 0),
     ([0x04, 0x01], .absw (.reg 0) 1),
     ([0x05, 0x01], .addcl (.reg 0) 1),
     ([0x06, 0x01], .addd (.reg 0) 1),
     ([0x07, 0xd9], .addf .imm1 1),
     ([0x08, 0x01], .addl (.reg 0) 1),
     ([0x09, 0x11], .addswl (.reg 2) 1),
     ([0x0a, 0x11], .adduwl (.reg 2) 1),
     ([0x0b, 0x48], .addw (.base 1) 0),
     ([0x0c, 0xe9, 0x00, 0xff], .andl (.imm2 0xff00) 1),
     ([0x0d, 0x01], .andw (.reg 0) 1),
     ([0x0e, 0x08, 0x10, 0x00], .call .unc (.pcrp 0x10)),
     ([0x0e, 0x07], .call .unc (.jregi 7)),
     ([0x0f, 0x40, 0x00, 0x00], .callb 0x40),
     ([0x10, 0x00, 0x01, 0x00], .callf 0x100),
     ([0x11, 0x08], .cmpd (.reg 1) 0),
     ([0x12, 0x08], .cmpf (.reg 1) 0),
     ([0x13, 0x08], .cmpl (.reg 1) 0)] = true := by
  decide +kernel

/-- V332, ... , V305. -/
theorem test_decode_2 : decodesTo
    [([0x13, 0xd0], .cmpl .imm0 0),
     ([0x14, 0xe2, 0x0f, 0x00], .cmplb (.immv 0xf) 2),
     ([0x15, 0x08], .cmpw (.reg 1) 0),
     ([0x16, 0x0a], .cmpwb (.reg 1) 2),
     ([0x17, 0x48], .cvtbsl (.base 1) 0),
     ([0x18, 0xb9, 0x02, 0x00], .cvtbsw (.bd2 7 2) 1),
     ([0x19, 0x08], .cvtbzl (.reg 1) 0),
     ([0x1a, 0x08], .cvtbzw (.reg 1) 0),
     ([0x1b, 0x08], .cvtdf (.reg 1) 0),
     ([0x1c, 0x08], .cvtfd (.reg 1) 0),
     ([0x1d, 0x08], .cvtsld (.reg 1) 0),
     ([0x1e, 0x08], .cvtslf (.reg 1) 0),
     ([0x1f, 0x08], .cvttdsl (.reg 1) 0),
     ([0x20, 0x08], .cvttdul (.reg 1) 0),
     ([0x21, 0x08], .cvttfsl (.reg 1) 0),
     ([0x22, 0x08], .cvttful (.reg 1) 0),
     ([0x23, 0x08], .cvtuld (.reg 1) 0),
     ([0x24, 0x08], .cvtulf (.reg 1) 0),
     ([0x25, 0x08], .cvtwsl (.reg 1) 0),
     ([0x26, 0x08], .cvtwzl (.reg 1) 0)] = true := by
  decide +kernel

/-- V162, ... , V413. -/
theorem test_decode_3 : decodesTo
    [([0x27, 0x01], .divd (.reg 0) 1),
     ([0x28, 0x01], .divf (.reg 0) 1),
     ([0x29, 0x11], .divrsl (.reg 2) 1),
     ([0x2a, 0x11], .divrslw (.reg 2) 1),
     ([0x2b, 0x11], .divrsw (.reg 2) 1),
     ([0x2c, 0x11], .divrul (.reg 2) 1),
     ([0x2d, 0x11], .divrulw (.reg 2) 1),
     ([0x2e, 0x48], .divruw (.base 1) 0),
     ([0x2f, 0x11], .divsl (.reg 2) 1),
     ([0x30, 0x11], .divsw (.reg 2) 1),
     ([0x31, 0xb9, 0x02, 0x00], .divul (.bd2 7 2) 1),
     ([0x32, 0x11], .divuw (.reg 2) 1),
     ([0x33, 0x0b], .enter 11),
     ([0x34, 0x02, 0x03, 0x00, 0x00, 0x80], .entersav 2 0x80000003),
     ([0x35, 0xe0, 0x70, 0x19], .gmov 3 ⟨.w, 0⟩ (.mreg ⟨.d, 1⟩)),
     ([0x35, 0x73, 0x31, 0x0a], .gmov 1 ⟨.f, 3⟩ (.x (.bi 1 1 2))),
     ([0x36, 0xb1, 0x70, 0x0d], .gsto 2 ⟨.f, 1⟩ (.mreg ⟨.l, 5⟩)),
     ([0x36, 0x82, 0x00, 0x10, 0x00, 0x00], .gsto 2 ⟨.w, 2⟩ (.mmema 0x1000)),
     ([0x37, 0x00], .halt),
     ([0x38, 0x01], .jump .unc (.jregi 1))] = true := by
  decide +kernel

/-- V400, ... , V126. -/
theorem test_decode_4 : decodesTo
    [([0x38, 0x08, 0x04, 0x00], .jump .unc (.pcrp 0x4)),
     ([0x39, 0x82, 0x00, 0x00], .jumpb 0x82),
     ([0x3a, 0x10, 0x00, 0x00], .jumpf 0x10),
     ([0x3b, 0xf8, 0x31, 0x02], .leal (.x (.bi 1 0 2)) 0),
     ([0x3b, 0x18], .leal (.reg 3) 0),
     ([0x3c, 0x0b], .leave 11),
     ([0x3d, 0x02, 0x03, 0x00, 0x00, 0x80], .leaveres 2 0x80000003),
     ([0x3e, 0xe0, 0x12, 0x00], .movbl (.immv 0x12) 0),
     ([0x3f, 0x13], .movbw (.reg 2) 3),
     ([0x40, 0xb9, 0x02, 0x00], .movd (.bd2 7 2) 1),
     ([0x41, 0xda], .movf .imm1 2),
     ([0x42, 0x08], .movflags (.reg 1)),
     ([0x43, 0xe8, 0xfe, 0xff], .movl (.imm2 0xfffe) 0),
     ([0x43, 0x0e], .movl (.reg 1) 6),
     ([0x44, 0x08], .movw (.reg 1) 0),
     ([0x45, 0x08], .movwl (.reg 1) 0),
     ([0x46, 0x01], .muld (.reg 0) 1),
     ([0x47, 0x01], .mulf (.reg 0) 1),
     ([0x48, 0x11], .mulsl (.reg 2) 1),
     ([0x49, 0x11], .mulsw (.reg 2) 1)] = true := by
  decide +kernel

/-- V132, ... , V433. -/
theorem test_decode_5 : decodesTo
    [([0x4a, 0x11], .mulswl (.reg 2) 1),
     ([0x4b, 0x11], .mulul (.reg 2) 1),
     ([0x4c, 0x11], .muluw (.reg 2) 1),
     ([0x4d, 0x11], .muluwl (.reg 2) 1),
     ([0x4e, 0x09], .negd (.reg 1) 1),
     ([0x4f, 0x01], .negf (.reg 0) 1),
     ([0x50, 0x48], .negl (.base 1) 0),
     ([0x51, 0x01], .negw (.reg 0) 1),
     ([0x52, 0x00], .nop),
     ([0x53, 0x48], .notl (.base 1) 0),
     ([0x54, 0x01], .notw (.reg 0) 1),
     ([0x55, 0x01], .orl (.reg 0) 1),
     ([0x56, 0x48], .orw (.base 1) 0),
     ([0x57, 0x48], .popd (.base 1)),
     ([0x58, 0x08], .popf (.reg 1)),
     ([0x59, 0x08], .popl (.reg 1)),
     ([0x59, 0x38], .popl (.reg 7)),
     ([0x5a, 0x00, 0x03, 0x00, 0x00, 0x80], .popregs 0x80000003),
     ([0x5b, 0x08], .popw (.reg 1)),
     ([0x5c, 0x08], .pushd (.reg 1))] = true := by
  decide +kernel

/-- V432, ... , V78. -/
theorem test_decode_6 : decodesTo
    [([0x5d, 0xe0, 0xd0, 0x0f, 0x49, 0x40], .pushf (.immv 0x40490fd0)),
     ([0x5e, 0x78], .pushl (.base 7)),
     ([0x5e, 0xe0, 0xff, 0xee, 0xdd, 0xcc], .pushl (.immv 0xccddeeff)),
     ([0x5f, 0x00, 0x03, 0x00, 0x00, 0x80], .pushregs 0x80000003),
     ([0x5f, 0x00, 0x00, 0xc0, 0x00, 0x00], .pushregs 0x0000c000),
     ([0x60, 0xe0, 0xff, 0xef], .pushw (.immv 0xefff)),
     ([0x61, 0x11], .remsl (.reg 2) 1),
     ([0x62, 0x11], .remsw (.reg 2) 1),
     ([0x63, 0x11], .remul (.reg 2) 1),
     ([0x64, 0x11], .remuw (.reg 2) 1),
     ([0x65, 0x0b], .ret 11),
     ([0x66, 0xfb], .rlil 31 3),
     ([0x67, 0xfb], .rliw 31 3),
     ([0x68, 0x11], .rll (.reg 2) 1),
     ([0x69, 0x11], .rlw (.reg 2) 1),
     ([0x6a, 0x52], .rril 10 2),
     ([0x6b, 0xfb], .rriw 31 3),
     ([0x6c, 0xba, 0x02, 0x00], .rrl (.bd2 7 2) 2),
     ([0x6d, 0x11], .rrw (.reg 2) 1),
     ([0x6e, 0x4a], .set0l (.base 1) .lu)] = true := by
  decide +kernel

/-- V74, ... , V58. -/
theorem test_decode_7 : decodesTo
    [([0x6f, 0x16], .set0w (.reg 2) .ne),
     ([0x6f, 0x10], .set0w (.reg 2) .unc),
     ([0x70, 0x12], .set1l (.reg 2) .geu),
     ([0x71, 0x49], .set1w (.base 1) .gu),
     ([0x72, 0xfb], .slil 31 3),
     ([0x73, 0x09], .sliw 1 1),
     ([0x74, 0x11], .sll (.reg 2) 1),
     ([0x75, 0xe1, 0x03, 0x00], .slw (.immv 0x3) 1),
     ([0x76, 0x01], .sqrtd (.reg 0) 1),
     ([0x77, 0x01], .sqrtf (.reg 0) 1),
     ([0x78, 0xfb], .srail 31 3),
     ([0x79, 0x09], .sraiw 1 1),
     ([0x7a, 0x11], .sral (.reg 2) 1),
     ([0x7b, 0x11], .sraw (.reg 2) 1),
     ([0x7c, 0xfb], .srlil 31 3),
     ([0x7d, 0x52], .srliw 10 2),
     ([0x7e, 0x11], .srll (.reg 2) 1),
     ([0x7f, 0x11], .srlw (.reg 2) 1),
     ([0x80, 0x48], .stod (.base 1) 0),
     ([0x81, 0x48], .stof (.base 1) 0)] = true := by
  decide +kernel

/-- V73, ... , V244. -/
theorem test_decode_8 : decodesTo
    [([0x82, 0x48], .stoflags (.base 1)),
     ([0x83, 0xb9, 0x02, 0x00], .stol (.bd2 7 2) 1),
     ([0x84, 0x48], .stolb (.base 1) 0),
     ([0x85, 0xb9, 0x02, 0x00], .stolw (.bd2 7 2) 1),
     ([0x86, 0x98, 0x02, 0x00], .stow (.bd2 3 2) 0),
     ([0x87, 0x08], .stowb (.reg 1) 0),
     ([0x88, 0x48], .subcl (.base 1) 0),
     ([0x89, 0x01], .subd (.reg 0) 1),
     ([0x8a, 0x09], .subf (.reg 1) 1),
     ([0x8b, 0xef, 0x06, 0x00], .subl (.imm2 0x6) 7),
     ([0x8c, 0x11], .subswl (.reg 2) 1),
     ([0x8d, 0x11], .subuwl (.reg 2) 1),
     ([0x8e, 0x01], .subw (.reg 0) 1),
     ([0x8f, 0xc9], .xorl .immMinus1 1),
     ([0x90, 0x09], .xorw (.reg 1) 1)] = true := by
  decide +kernel

/-! ## One step on small states: the vectors of 95_test_vectors.md -/

/-- V168. -/
theorem test_absd :
    runs (small.setD 1 0xc008000000000000) [0x01, 0x09] (fun s => (s.setD 1 0x4008000000000000).setPc 0x102) := by
  decide +kernel

/-- V167. -/
theorem test_absf :
    runs ((small.setF 0 0x80000000).setF 1 0x11111111) [0x02, 0x01] (fun s => (s.setF 1 0x80000000).setPc 0x102) := by
  decide +kernel

/-- V165. -/
theorem test_absl :
    runs (((small.setL 1 0x2000).setL 0 0x0).placeBytes 0x2000 [0xfb, 0xff, 0xff, 0xff]) [0x03, 0x48]
      (fun s => (s.setL 0 0x5).setPc 0x102) := by
  decide +kernel

/-- V163. -/
theorem test_absw : runs ((small.setW 0 0xfffb).setW 1 0x0) [0x04, 0x01] (fun s => (s.setW 1 0x5).setPc 0x102) := by
  decide +kernel

/-- V105. -/
theorem test_addcl :
    runs ((small.setL 0 0x1).setL 1 0x2) [0x05, 0x01] (fun s => (s.setPc 0x100).raise (.notAvailable 0x100)) := by
  decide +kernel

/-- V111. -/
theorem test_addd :
    runs ((small.setD 0 0x3ff0000000000000).setD 1 0x4008000000000000) [0x06, 0x01]
      (fun s => (s.setD 1 0x4010000000000000).setPc 0x102) := by
  decide +kernel

/-- V110. -/
theorem test_addf : runs (small.setF 1 0x4b800000) [0x07, 0xd9] (fun s => s.setPc 0x102) := by
  decide +kernel

/-- V102. -/
theorem test_addl :
    runs ((small.setL 0 0x80000000).setL 1 0x80000000) [0x08, 0x01] (fun s => (s.setL 1 0x0).setPc 0x102) := by
  decide +kernel

/-- V107. -/
theorem test_addswl :
    runs ((small.setW 2 0x8000).setL 1 0xffff) [0x09, 0x11] (fun s => (s.setL 1 0x7fff).setPc 0x102) := by
  decide +kernel

/-- V106. -/
theorem test_adduwl :
    runs ((small.setW 2 0x8000).setL 1 0xffff) [0x0a, 0x11] (fun s => (s.setL 1 0x17fff).setPc 0x102) := by
  decide +kernel

/-- V101. -/
theorem test_addw :
    runs (((small.setL 1 0x2000).setW 0 0x7fff).placeBytes 0x2000 [0x1, 0x0]) [0x0b, 0x48]
      (fun s => (s.setW 0 0x8000).setPc 0x102) := by
  decide +kernel

/-- V241. -/
theorem test_andl :
    runs (small.setL 1 0x12345678) [0x0c, 0xe9, 0x00, 0xff] (fun s => (s.setL 1 0x12345600).setPc 0x104) := by
  decide +kernel

/-- V239. -/
theorem test_andw :
    runs ((small.setW 0 0xff0).setW 1 0xabcd) [0x0d, 0x01] (fun s => (s.setW 1 0xbc0).setPc 0x102) := by
  decide +kernel

/-- V416. -/
theorem test_call :
    runs (small.setL 7 0x3000) [0x0e, 0x08, 0x10, 0x00]
      (fun s => ((s.setL 7 0x2ffc).placeBytes 0x2ffc [0x4, 0x1, 0x0, 0x0]).setPc 0x124) := by
  decide +kernel

/-- V418. -/
theorem test_call_more :
    runs (small.setL 7 0x3000) [0x0e, 0x07]
      (fun s => ((s.setL 7 0x2ffc).placeBytes 0x2ffc [0x2, 0x1, 0x0, 0x0]).setPc 0x3000) := by
  decide +kernel

/-- V420. -/
theorem test_callb :
    runs (small.setL 7 0x3000) [0x0f, 0x40, 0x00, 0x00]
      (fun s => ((s.setL 7 0x2ffc).placeBytes 0x2ffc [0x4, 0x1, 0x0, 0x0]).setPc 0x84) := by
  decide +kernel

/-- V419. -/
theorem test_callf :
    runs (small.setL 7 0x3000) [0x10, 0x00, 0x01, 0x00]
      (fun s => ((s.setL 7 0x2ffc).placeBytes 0x2ffc [0x4, 0x1, 0x0, 0x0]).setPc 0x304) := by
  decide +kernel

/-- V337. -/
theorem test_cmpd :
    runs (((small.setD 1 0x7ff0000000000000).setD 0 0x7fefffffffffffff).setFlags 0x0) [0x11, 0x08]
      (fun s => (s.setFlags 0x8).setPc 0x102) := by
  decide +kernel

/-- V336. -/
theorem test_cmpf :
    runs (((small.setF 1 0x80000000).setF 0 0x0).setFlags 0x0) [0x12, 0x08]
      (fun s => (s.setFlags 0x4).setPc 0x102) := by
  decide +kernel

/-- V331. -/
theorem test_cmpl :
    runs (((small.setL 1 0xffffffff).setL 0 0x0).setFlags 0x0) [0x13, 0x08]
      (fun s => (s.setFlags 0x12).setPc 0x102) := by
  decide +kernel

/-- V332. -/
theorem test_cmpl_more :
    runs ((small.setL 0 0x80000000).setFlags 0x0) [0x13, 0xd0] (fun s => (s.setFlags 0x9).setPc 0x102) := by
  decide +kernel

/-- V328. -/
theorem test_cmplb :
    runs ((small.setL 2 0x123456ff).setFlags 0x0) [0x14, 0xe2, 0x0f, 0x00]
      (fun s => (s.setFlags 0x9).setPc 0x104) := by
  decide +kernel

/-- V329. -/
theorem test_cmpw :
    runs (((small.setW 1 0x1).setW 0 0x8000).setFlags 0x1f) [0x15, 0x08] (fun s => (s.setFlags 0x9).setPc 0x102) := by
  decide +kernel

/-- V323. -/
theorem test_cmpwb :
    runs (((small.setW 1 0xaa01).setW 2 0xbb0f).setFlags 0x0) [0x16, 0x0a]
      (fun s => (s.setFlags 0x3).setPc 0x102) := by
  decide +kernel

/-- V304. -/
theorem test_cvtbsl :
    runs (((small.setL 1 0x2000).setL 0 0x0).placeBytes 0x2000 [0x80]) [0x17, 0x48]
      (fun s => (s.setL 0 0xffffff80).setPc 0x102) := by
  decide +kernel

/-- V302. -/
theorem test_cvtbsw :
    runs (((small.setL 7 0x3000).setW 1 0x0).placeBytes 0x3002 [0x7f]) [0x18, 0xb9, 0x02, 0x00]
      (fun s => (s.setW 1 0x7f).setPc 0x104) := by
  decide +kernel

/-- V303. -/
theorem test_cvtbzl :
    runs ((small.setL 1 0x123456ff).setL 0 0xaaaaaaaa) [0x19, 0x08] (fun s => (s.setL 0 0xff).setPc 0x102) := by
  decide +kernel

/-- V300. -/
theorem test_cvtbzw :
    runs ((small.setW 1 0x12ff).setW 0 0xaaaa) [0x1a, 0x08] (fun s => (s.setW 0 0xff).setPc 0x102) := by
  decide +kernel

/-- V320. -/
theorem test_cvtdf :
    runs ((small.setD 1 0x400921f9f01b866e).setF 0 0x0) [0x1b, 0x08]
      (fun s => (s.setF 0 0x40490fd0).setPc 0x102) := by
  decide +kernel

/-- V322. -/
theorem test_cvtfd :
    runs ((small.setF 1 0x3eaaaaab).setD 0 0x0) [0x1c, 0x08]
      (fun s => (s.setD 0 0x3fd5555560000000).setPc 0x102) := by
  decide +kernel

/-- V312. -/
theorem test_cvtsld :
    runs ((small.setL 1 0x80000000).setD 0 0x0) [0x1d, 0x08]
      (fun s => (s.setD 0 0xc1e0000000000000).setPc 0x102) := by
  decide +kernel

/-- V310. -/
theorem test_cvtslf :
    runs ((small.setL 1 0x1000003).setF 0 0x0) [0x1e, 0x08] (fun s => (s.setF 0 0x4b800002).setPc 0x102) := by
  decide +kernel

/-- V318. -/
theorem test_cvttdsl :
    runs ((small.setD 1 0xc1e0000000000000).setL 0 0x0) [0x1f, 0x08]
      (fun s => (s.setL 0 0x80000000).setPc 0x102) := by
  decide +kernel

/-- V317. -/
theorem test_cvttdul :
    runs ((small.setD 1 0x41effffffff00000).setL 0 0x0) [0x20, 0x08]
      (fun s => (s.setL 0 0xffffffff).setPc 0x102) := by
  decide +kernel

/-- V315. -/
theorem test_cvttfsl :
    runs ((small.setF 1 0xc02ccccd).setL 0 0x0) [0x21, 0x08] (fun s => (s.setL 0 0xfffffffe).setPc 0x102) := by
  decide +kernel

/-- V314. -/
theorem test_cvttful :
    runs ((small.setF 1 0x4f000000).setL 0 0x0) [0x22, 0x08] (fun s => (s.setL 0 0x80000000).setPc 0x102) := by
  decide +kernel

/-- V311. -/
theorem test_cvtuld :
    runs ((small.setL 1 0xffffffff).setD 0 0x0) [0x23, 0x08]
      (fun s => (s.setD 0 0x41efffffffe00000).setPc 0x102) := by
  decide +kernel

/-- V307. -/
theorem test_cvtulf :
    runs ((small.setL 1 0xffffffff).setF 0 0x0) [0x24, 0x08] (fun s => (s.setF 0 0x4f800000).setPc 0x102) := by
  decide +kernel

/-- V306. -/
theorem test_cvtwsl :
    runs ((small.setW 1 0x8000).setL 0 0xaaaaaaaa) [0x25, 0x08] (fun s => (s.setL 0 0xffff8000).setPc 0x102) := by
  decide +kernel

/-- V305. -/
theorem test_cvtwzl :
    runs ((small.setW 1 0x8000).setL 0 0xaaaaaaaa) [0x26, 0x08] (fun s => (s.setL 0 0x8000).setPc 0x102) := by
  decide +kernel

/-- V162. -/
theorem test_divd :
    runs ((small.setD 0 0x4008000000000000).setD 1 0x3ff0000000000000) [0x27, 0x01]
      (fun s => (s.setD 1 0x3fd5555555555555).setPc 0x102) := by
  decide +kernel

/-- V161. -/
theorem test_divf :
    runs ((small.setF 0 0x40400000).setF 1 0x3f800000) [0x28, 0x01] (fun s => (s.setF 1 0x3eaaaaab).setPc 0x102) := by
  decide +kernel

/-- V154. -/
theorem test_divrsl :
    runs ((small.setL 2 0xfffffff6).setL 1 0x7b) [0x29, 0x11]
      (fun s => ((s.setL 1 0xfffffff4).setL 2 0x3).setPc 0x102) := by
  decide +kernel

/-- V159. -/
theorem test_divrslw :
    runs ((small.setW 2 0xfff0).setL 1 0x12345678) [0x2a, 0x11]
      (fun s => ((s.setW 2 0x8).setL 1 0xfedcba99).setPc 0x102) := by
  decide +kernel

/-- V160. -/
theorem test_divrslw_more :
    runs ((small.setW 2 0xffff).setL 1 0x80000000) [0x2a, 0x11]
      (fun s => (s.setPc 0x100).raise (.divideOverflow 0x100)) := by
  decide +kernel

/-- V152. -/
theorem test_divrsw :
    runs ((small.setW 2 0x4).setW 1 0xfff9) [0x2b, 0x11]
      (fun s => ((s.setW 1 0xffff).setW 2 0xfffd).setPc 0x102) := by
  decide +kernel

/-- V153. -/
theorem test_divrul :
    runs ((small.setL 2 0xa).setL 1 0x7b) [0x2c, 0x11] (fun s => ((s.setL 1 0xc).setL 2 0x3).setPc 0x102) := by
  decide +kernel

/-- V157. -/
theorem test_divrulw :
    runs ((small.setW 2 0x10).setL 1 0x12345678) [0x2d, 0x11]
      (fun s => ((s.setW 2 0x8).setL 1 0x1234567).setPc 0x102) := by
  decide +kernel

/-- V151. -/
theorem test_divruw :
    runs (((small.setL 1 0x2000).setW 0 0x7).placeBytes 0x2000 [0x4, 0x0]) [0x2e, 0x48]
      (fun s => (s.setW 0 0x1).setPc 0x102) := by
  decide +kernel

/-- V143. -/
theorem test_divsl :
    runs ((small.setL 2 0xffffffff).setL 1 0x80000001) [0x2f, 0x11] (fun s => (s.setL 1 0x7fffffff).setPc 0x102) := by
  decide +kernel

/-- V142. -/
theorem test_divsl_more :
    runs ((small.setL 2 0xffffffff).setL 1 0x80000000) [0x2f, 0x11]
      (fun s => (s.setPc 0x100).raise (.divideOverflow 0x100)) := by
  decide +kernel

/-- V137. -/
theorem test_divsw :
    runs ((small.setW 2 0x4).setW 1 0xfff9) [0x30, 0x11] (fun s => (s.setW 1 0xffff).setPc 0x102) := by
  decide +kernel

/-- V141. -/
theorem test_divul :
    runs (((small.setL 7 0x3000).setL 1 0xffffffff).placeBytes 0x3002 [0x10, 0x0, 0x0, 0x0]) [0x31, 0xb9, 0x02, 0x00]
      (fun s => (s.setL 1 0xfffffff).setPc 0x104) := by
  decide +kernel

/-- V136. -/
theorem test_divuw :
    runs ((small.setW 2 0xffff).setW 1 0xfffe) [0x32, 0x11] (fun s => (s.setW 1 0x0).setPc 0x102) := by
  decide +kernel

/-- V135. -/
theorem test_divuw_more :
    runs ((small.setW 2 0x4).setW 1 0x7) [0x32, 0x11] (fun s => (s.setW 1 0x1).setPc 0x102) := by
  decide +kernel

/-- V423. -/
theorem test_enter :
    runs ((small.setL 7 0xffc).setL 6 0x2222) [0x33, 0x0b]
      (fun s => (((s.setL 6 0xff8).setL 7 0xfe2).placeBytes 0xff8 [0x22, 0x22, 0x0, 0x0]).setPc 0x102) := by
  decide +kernel

/-- V425. -/
theorem test_entersav :
    runs (((((small.setL 7 0xffc).setL 6 0x2222).setW 0 0x1111).setW 1 0x2222).setD 7 0x4008000000000000) [0x34, 0x02, 0x03, 0x00, 0x00, 0x80]
      (fun s => ((((s.setL 6 0xff8).setL 7 0xfe8).placeBytes 0xfe8 [0x0, 0x0, 0x0, 0x0, 0x0, 0x0, 0x8, 0x40, 0x22, 0x22, 0x11, 0x11]).placeBytes 0xff8 [0x22, 0x22, 0x0, 0x0]).setPc 0x106) := by
  decide +kernel

/-- V81. -/
theorem test_gmov :
    runs (((((small.setD 1 0x4008000000000000).setW 0 0x1).setW 1 0x1).setW 2 0x1).setW 3 0x1) [0x35, 0xe0, 0x70, 0x19]
      (fun s => ((((s.setW 0 0x0).setW 1 0x0).setW 2 0x0).setW 3 0x4008).setPc 0x104) := by
  decide +kernel

/-- V85. -/
theorem test_gmov_more :
    runs ((((small.setL 1 0x2000).setL 2 0x4).setF 3 0xaaaaaaaa).placeBytes 0x2008 [0x34, 0x12]) [0x35, 0x73, 0x31, 0x0a]
      (fun s => (s.setF 3 0xaaaa1234).setPc 0x104) := by
  decide +kernel

/-- V88. -/
theorem test_gsto :
    runs ((small.setF 1 0x3f800000).setL 5 0x0) [0x36, 0xb1, 0x70, 0x0d]
      (fun s => (s.setL 5 0x3f800000).setPc 0x104) := by
  decide +kernel

/-- V86. -/
theorem test_gsto_more :
    runs ((small.setW 2 0x2211).setW 3 0x4433) [0x36, 0x82, 0x00, 0x10, 0x00, 0x00]
      (fun s => (s.placeBytes 0x1000 [0x11, 0x22, 0x33, 0x44]).setPc 0x106) := by
  decide +kernel

/-- V446. -/
theorem test_halt : runs small [0x37, 0x00] (fun s => (s.setPc 0x102).setStatus .halted) := by
  decide +kernel

/-- V413. -/
theorem test_jump : runs (small.setL 1 0x4001) [0x38, 0x01] (fun s => s.setPc 0x4001) := by
  decide +kernel

/-- V400. -/
theorem test_jump_more : runs small [0x38, 0x08, 0x04, 0x00] (fun s => s.setPc 0x10c) := by
  decide +kernel

/-- V415. -/
theorem test_jumpb : runs small [0x39, 0x82, 0x00, 0x00] (fun s => s.setPc 0x0) := by
  decide +kernel

/-- V414. -/
theorem test_jumpf : runs small [0x3a, 0x10, 0x00, 0x00] (fun s => s.setPc 0x124) := by
  decide +kernel

/-- V64. -/
theorem test_leal :
    runs ((small.setL 1 0x1000).setL 2 0x234) [0x3b, 0xf8, 0x31, 0x02] (fun s => (s.setL 0 0x1234).setPc 0x104) := by
  decide +kernel

/-- V71. -/
theorem test_leal_more :
    runs (small.setL 3 0xabcdef01) [0x3b, 0x18] (fun s => (s.setL 0 0xabcdef01).setPc 0x102) := by
  decide +kernel

/-- V424. -/
theorem test_leave :
    runs (((small.setL 7 0xf00).setL 6 0xff8).placeBytes 0xff8 [0x22, 0x22, 0x0, 0x0, 0x4, 0x1, 0x0, 0x0]) [0x3c, 0x0b]
      (fun s => ((s.setL 6 0x2222).setL 7 0x1016).setPc 0x104) := by
  decide +kernel

/-- V426. -/
theorem test_leaveres :
    runs ((((((small.setL 7 0xfe8).setL 6 0xff8).setW 0 0x0).setW 1 0x0).setD 7 0x0).placeBytes 0xfe8 [0x0, 0x0, 0x0, 0x0, 0x0, 0x0, 0x8, 0x40, 0x22, 0x22, 0x11, 0x11, 0x0, 0x0, 0x0, 0x0, 0x22, 0x22, 0x0, 0x0, 0x4, 0x1, 0x0, 0x0]) [0x3d, 0x02, 0x03, 0x00, 0x00, 0x80]
      (fun s => (((((s.setW 0 0x1111).setW 1 0x2222).setL 6 0x2222).setL 7 0x1004).setD 7 0x4008000000000000).setPc 0x104) := by
  decide +kernel

/-- V52. -/
theorem test_movbl :
    runs (small.setL 0 0xffffffff) [0x3e, 0xe0, 0x12, 0x00] (fun s => (s.setL 0 0xffffff12).setPc 0x104) := by
  decide +kernel

/-- V51. -/
theorem test_movbw :
    runs ((small.setW 2 0x1234).setW 3 0xaabb) [0x3f, 0x13] (fun s => (s.setW 3 0xaa34).setPc 0x102) := by
  decide +kernel

/-- V49. -/
theorem test_movd :
    runs ((small.setL 7 0x3000).placeBytes 0x3002 [0x1, 0x2, 0x3, 0x4, 0x5, 0x6, 0x7, 0x8]) [0x40, 0xb9, 0x02, 0x00]
      (fun s => (s.setD 1 0x807060504030201).setPc 0x104) := by
  decide +kernel

/-- V47. -/
theorem test_movf : runs small [0x41, 0xda] (fun s => (s.setF 2 0x3f800000).setPc 0x102) := by
  decide +kernel

/-- V72. -/
theorem test_movflags :
    runs ((small.setW 1 0xffff).setFlags 0x4) [0x42, 0x08] (fun s => (s.setFlags 0x1f).setPc 0x102) := by
  decide +kernel

/-- V44. -/
theorem test_movl : runs small [0x43, 0xe8, 0xfe, 0xff] (fun s => (s.setL 0 0xfffffffe).setPc 0x104) := by
  decide +kernel

/-- V46. -/
theorem test_movl_more : runs (small.setL 1 0x1234) [0x43, 0x0e] (fun s => (s.setL 6 0x1234).setPc 0x102) := by
  decide +kernel

/-- V41. -/
theorem test_movw : runs (small.setW 1 0xbeef) [0x44, 0x08] (fun s => (s.setW 0 0xbeef).setPc 0x102) := by
  decide +kernel

/-- V53. -/
theorem test_movwl :
    runs ((small.setW 1 0x1234).setL 0 0xaabbccdd) [0x45, 0x08] (fun s => (s.setL 0 0xaabb1234).setPc 0x102) := by
  decide +kernel

/-- V134. -/
theorem test_muld :
    runs ((small.setD 0 0x4008000000000000).setD 1 0x4008000000000000) [0x46, 0x01]
      (fun s => (s.setD 1 0x4022000000000000).setPc 0x102) := by
  decide +kernel

/-- V133. -/
theorem test_mulf :
    runs ((small.setF 0 0x40400000).setF 1 0xbf800000) [0x47, 0x01] (fun s => (s.setF 1 0xc0400000).setPc 0x102) := by
  decide +kernel

/-- V129. -/
theorem test_mulsl :
    runs ((small.setL 2 0xffffffff).setL 1 0x7) [0x48, 0x11] (fun s => (s.setL 1 0xfffffff9).setPc 0x102) := by
  decide +kernel

/-- V126. -/
theorem test_mulsw :
    runs ((small.setW 2 0xfffe).setW 1 0x3) [0x49, 0x11] (fun s => (s.setW 1 0xfffa).setPc 0x102) := by
  decide +kernel

/-- V132. -/
theorem test_mulswl :
    runs ((small.setW 2 0x8000).setL 1 0x8000) [0x4a, 0x11] (fun s => (s.setL 1 0x40000000).setPc 0x102) := by
  decide +kernel

/-- V128. -/
theorem test_mulul :
    runs ((small.setL 2 0x10000).setL 1 0x10001) [0x4b, 0x11] (fun s => (s.setL 1 0x10000).setPc 0x102) := by
  decide +kernel

/-- V125. -/
theorem test_muluw :
    runs ((small.setW 2 0xffff).setW 1 0xffff) [0x4c, 0x11] (fun s => (s.setW 1 0x1).setPc 0x102) := by
  decide +kernel

/-- V130. -/
theorem test_muluwl :
    runs ((small.setW 2 0xffff).setL 1 0x1234ffff) [0x4d, 0x11] (fun s => (s.setL 1 0xfffe0001).setPc 0x102) := by
  decide +kernel

/-- V124. -/
theorem test_negd :
    runs (small.setD 1 0x4008000000000000) [0x4e, 0x09] (fun s => (s.setD 1 0xc008000000000000).setPc 0x102) := by
  decide +kernel

/-- V123. -/
theorem test_negf :
    runs ((small.setF 0 0x0).setF 1 0x0) [0x4f, 0x01] (fun s => (s.setF 1 0x80000000).setPc 0x102) := by
  decide +kernel

/-- V122. -/
theorem test_negl :
    runs (((small.setL 1 0x2000).setL 0 0x0).placeBytes 0x2000 [0x5, 0x0, 0x0, 0x0]) [0x50, 0x48]
      (fun s => (s.setL 0 0xfffffffb).setPc 0x102) := by
  decide +kernel

/-- V120. -/
theorem test_negw :
    runs ((small.setW 0 0x8000).setW 1 0x0) [0x51, 0x01] (fun s => (s.setW 1 0x8000).setPc 0x102) := by
  decide +kernel

/-- V445. -/
theorem test_nop : runs small [0x52, 0x00] (fun s => s.setPc 0x102) := by
  decide +kernel

/-- V247. -/
theorem test_notl :
    runs (((small.setL 1 0x2000).setL 0 0x0).placeBytes 0x2000 [0x0, 0x0, 0x0, 0x0]) [0x53, 0x48]
      (fun s => (s.setL 0 0xffffffff).setPc 0x102) := by
  decide +kernel

/-- V246. -/
theorem test_notw : runs ((small.setW 0 0xff).setW 1 0x0) [0x54, 0x01] (fun s => (s.setW 1 0xff00).setPc 0x102) := by
  decide +kernel

/-- V243. -/
theorem test_orl :
    runs ((small.setL 0 0xf0f0f0f0).setL 1 0xf0f0000) [0x55, 0x01] (fun s => (s.setL 1 0xfffff0f0).setPc 0x102) := by
  decide +kernel

/-- V242. -/
theorem test_orw :
    runs (((small.setL 1 0x2000).setW 0 0xf0).placeBytes 0x2000 [0xf, 0xa0]) [0x56, 0x48]
      (fun s => (s.setW 0 0xa0ff).setPc 0x102) := by
  decide +kernel

/-- V439. -/
theorem test_popd :
    runs (((small.setL 7 0x2ff8).setL 1 0x2000).placeBytes 0x2ff8 [0x1, 0x2, 0x3, 0x4, 0x5, 0x6, 0x7, 0x8]) [0x57, 0x48]
      (fun s => ((s.setL 7 0x3000).placeBytes 0x2000 [0x1, 0x2, 0x3, 0x4, 0x5, 0x6, 0x7, 0x8]).setPc 0x102) := by
  decide +kernel

/-- V438. -/
theorem test_popf :
    runs (((small.setL 7 0x2ffc).setF 1 0x0).placeBytes 0x2ffc [0x0, 0x0, 0x40, 0x40]) [0x58, 0x08]
      (fun s => ((s.setL 7 0x3000).setF 1 0x40400000).setPc 0x102) := by
  decide +kernel

/-- V435. -/
theorem test_popl :
    runs (((small.setL 7 0x60).setL 1 0x0).placeBytes 0x60 [0xff, 0xee, 0xdd, 0xcc]) [0x59, 0x08]
      (fun s => ((s.setL 1 0xccddeeff).setL 7 0x64).setPc 0x102) := by
  decide +kernel

/-- V437. -/
theorem test_popl_more :
    runs ((small.setL 7 0x2ffc).placeBytes 0x2ffc [0x0, 0x40, 0x0, 0x0]) [0x59, 0x38]
      (fun s => (s.setL 7 0x4004).setPc 0x102) := by
  decide +kernel

/-- V441. -/
theorem test_popregs :
    runs (((((small.setL 7 0x2ff4).setW 0 0x0).setW 1 0x0).setD 7 0x0).placeBytes 0x2ff4 [0x0, 0x0, 0x0, 0x0, 0x0, 0x0, 0x8, 0x40, 0x22, 0x22, 0x11, 0x11]) [0x5a, 0x00, 0x03, 0x00, 0x00, 0x80]
      (fun s => ((((s.setW 0 0x1111).setW 1 0x2222).setL 7 0x3000).setD 7 0x4008000000000000).setPc 0x106) := by
  decide +kernel

/-- V434. -/
theorem test_popw :
    runs (((small.setL 7 0x2ffe).setW 1 0x0).placeBytes 0x2ffe [0xff, 0xef]) [0x5b, 0x08]
      (fun s => ((s.setW 1 0xefff).setL 7 0x3000).setPc 0x102) := by
  decide +kernel

/-- V433. -/
theorem test_pushd :
    runs ((small.setL 7 0x3000).setD 1 0x400921f9f01b866e) [0x5c, 0x08]
      (fun s => ((s.setL 7 0x2ff8).placeBytes 0x2ff8 [0x6e, 0x86, 0x1b, 0xf0, 0xf9, 0x21, 0x9, 0x40]).setPc 0x102) := by
  decide +kernel

/-- V432. -/
theorem test_pushf :
    runs (small.setL 7 0x3000) [0x5d, 0xe0, 0xd0, 0x0f, 0x49, 0x40]
      (fun s => ((s.setL 7 0x2ffc).placeBytes 0x2ffc [0xd0, 0xf, 0x49, 0x40]).setPc 0x106) := by
  decide +kernel

/-- V431. -/
theorem test_pushl :
    runs ((small.setL 7 0x3000).placeBytes 0x3000 [0xdd, 0xcc, 0xbb, 0xaa]) [0x5e, 0x78]
      (fun s => ((s.setL 7 0x2ffc).placeBytes 0x2ffc [0xdd, 0xcc, 0xbb, 0xaa]).setPc 0x102) := by
  decide +kernel

/-- V428. -/
theorem test_pushl_more :
    runs (small.setL 7 0x64) [0x5e, 0xe0, 0xff, 0xee, 0xdd, 0xcc]
      (fun s => ((s.setL 7 0x60).placeBytes 0x60 [0xff, 0xee, 0xdd, 0xcc]).setPc 0x106) := by
  decide +kernel

/-- V440. -/
theorem test_pushregs :
    runs ((((small.setL 7 0x3000).setW 0 0x1111).setW 1 0x2222).setD 7 0x4008000000000000) [0x5f, 0x00, 0x03, 0x00, 0x00, 0x80]
      (fun s => ((s.setL 7 0x2ff4).placeBytes 0x2ff4 [0x0, 0x0, 0x0, 0x0, 0x0, 0x0, 0x8, 0x40, 0x22, 0x22, 0x11, 0x11]).setPc 0x106) := by
  decide +kernel

/-- V444. -/
theorem test_pushregs_more :
    runs ((small.setL 7 0x3000).setL 6 0x2000) [0x5f, 0x00, 0x00, 0xc0, 0x00, 0x00]
      (fun s => ((s.setL 7 0x2ff8).placeBytes 0x2ff8 [0xfc, 0x2f, 0x0, 0x0, 0x0, 0x20, 0x0, 0x0]).setPc 0x106) := by
  decide +kernel

/-- V427. -/
theorem test_pushw :
    runs (small.setL 7 0x3000) [0x60, 0xe0, 0xff, 0xef]
      (fun s => ((s.setL 7 0x2ffe).placeBytes 0x2ffe [0xff, 0xef]).setPc 0x104) := by
  decide +kernel

/-- V149. -/
theorem test_remsl :
    runs ((small.setL 2 0xa).setL 1 0xffffff85) [0x61, 0x11] (fun s => (s.setL 1 0xfffffffd).setPc 0x102) := by
  decide +kernel

/-- V147. -/
theorem test_remsw :
    runs ((small.setW 2 0xffff).setW 1 0x8000) [0x62, 0x11] (fun s => (s.setW 1 0x0).setPc 0x102) := by
  decide +kernel

/-- V145. -/
theorem test_remsw_more :
    runs ((small.setW 2 0x4).setW 1 0xfff9) [0x62, 0x11] (fun s => (s.setW 1 0xfffd).setPc 0x102) := by
  decide +kernel

/-- V148. -/
theorem test_remul :
    runs ((small.setL 2 0x0).setL 1 0x9) [0x63, 0x11] (fun s => (s.setPc 0x100).raise (.divideByZero 0x100)) := by
  decide +kernel

/-- V144. -/
theorem test_remuw : runs ((small.setW 2 0x4).setW 1 0x7) [0x64, 0x11] (fun s => (s.setW 1 0x3).setPc 0x102) := by
  decide +kernel

/-- V422. -/
theorem test_ret :
    runs ((small.setL 7 0x2ffc).placeBytes 0x2ffc [0x4, 0x1, 0x0, 0x0]) [0x65, 0x0b]
      (fun s => (s.setL 7 0x3016).setPc 0x104) := by
  decide +kernel

/-- V236. -/
theorem test_rlil : runs (small.setL 3 0x80000001) [0x66, 0xfb] (fun s => (s.setL 3 0xc0000000).setPc 0x102) := by
  decide +kernel

/-- V234. -/
theorem test_rliw : runs (small.setW 3 0x8001) [0x67, 0xfb] (fun s => (s.setW 3 0xc000).setPc 0x102) := by
  decide +kernel

/-- V229. -/
theorem test_rll :
    runs ((small.setL 2 0x28).setL 1 0x80000421) [0x68, 0x11] (fun s => (s.setL 1 0x42180).setPc 0x102) := by
  decide +kernel

/-- V228. -/
theorem test_rlw :
    runs ((small.setW 2 0x14).setW 1 0x8421) [0x69, 0x11] (fun s => (s.setW 1 0x4218).setPc 0x102) := by
  decide +kernel

/-- V238. -/
theorem test_rril : runs (small.setL 2 0x3ff) [0x6a, 0x52] (fun s => (s.setL 2 0xffc00000).setPc 0x102) := by
  decide +kernel

/-- V237. -/
theorem test_rriw : runs (small.setW 3 0x8001) [0x6b, 0xfb] (fun s => (s.setW 3 0x3).setPc 0x102) := by
  decide +kernel

/-- V232. -/
theorem test_rrl :
    runs (((small.setL 7 0x3000).setL 2 0x80000421).placeBytes 0x3002 [0x1]) [0x6c, 0xba, 0x02, 0x00]
      (fun s => (s.setL 2 0xc0000210).setPc 0x104) := by
  decide +kernel

/-- V231. -/
theorem test_rrw : runs ((small.setW 2 0x4).setW 1 0x8421) [0x6d, 0x11] (fun s => (s.setW 1 0x1842).setPc 0x102) := by
  decide +kernel

/-- V78. -/
theorem test_set0l :
    runs ((small.setFlags 0x12).setL 1 0x2000) [0x6e, 0x4a]
      (fun s => (s.placeBytes 0x2000 [0x1, 0x0, 0x0, 0x0]).setPc 0x102) := by
  decide +kernel

/-- V74. -/
theorem test_set0w :
    runs ((small.setFlags 0x9).setW 2 0xffff) [0x6f, 0x16] (fun s => (s.setW 2 0x1).setPc 0x102) := by
  decide +kernel

/-- V76. -/
theorem test_set0w_more : runs (small.setW 2 0xffff) [0x6f, 0x10] (fun s => (s.setW 2 0x1).setPc 0x102) := by
  decide +kernel

/-- V79. -/
theorem test_set1l :
    runs ((small.setFlags 0x4).setL 2 0xdeadbeef) [0x70, 0x12] (fun s => (s.setL 2 0x1).setPc 0x102) := by
  decide +kernel

/-- V77. -/
theorem test_set1w :
    runs ((small.setFlags 0x9).setL 1 0x2000) [0x71, 0x49]
      (fun s => (s.placeBytes 0x2000 [0x1, 0x0]).setPc 0x102) := by
  decide +kernel

/-- V216. -/
theorem test_slil : runs (small.setL 3 0x3) [0x72, 0xfb] (fun s => (s.setL 3 0x80000000).setPc 0x102) := by
  decide +kernel

/-- V213. -/
theorem test_sliw : runs (small.setW 1 0xc001) [0x73, 0x09] (fun s => (s.setW 1 0x8002).setPc 0x102) := by
  decide +kernel

/-- V204. -/
theorem test_sll :
    runs ((small.setL 2 0xab20).setL 1 0x80000421) [0x74, 0x11] (fun s => (s.setL 1 0x0).setPc 0x102) := by
  decide +kernel

/-- V202. -/
theorem test_slw : runs (small.setW 1 0x1111) [0x75, 0xe1, 0x03, 0x00] (fun s => (s.setW 1 0x8888).setPc 0x104) := by
  decide +kernel

/-- V171. -/
theorem test_sqrtd :
    runs ((small.setD 0 0x4000000000000000).setD 1 0x0) [0x76, 0x01]
      (fun s => (s.setD 1 0x3ff6a09e667f3bcd).setPc 0x102) := by
  decide +kernel

/-- V169. -/
theorem test_sqrtf :
    runs ((small.setF 0 0x40800000).setF 1 0x0) [0x77, 0x01] (fun s => (s.setF 1 0x40000000).setPc 0x102) := by
  decide +kernel

/-- V224. -/
theorem test_srail : runs (small.setL 3 0x80000000) [0x78, 0xfb] (fun s => (s.setL 3 0xffffffff).setPc 0x102) := by
  decide +kernel

/-- V223. -/
theorem test_sraiw : runs (small.setW 1 0x8001) [0x79, 0x09] (fun s => (s.setW 1 0xc000).setPc 0x102) := by
  decide +kernel

/-- V211. -/
theorem test_sral :
    runs ((small.setL 2 0xab04).setL 1 0x80000421) [0x7a, 0x11] (fun s => (s.setL 1 0xf8000042).setPc 0x102) := by
  decide +kernel

/-- V208. -/
theorem test_sraw :
    runs ((small.setW 2 0xab04).setW 1 0x8421) [0x7b, 0x11] (fun s => (s.setW 1 0xf842).setPc 0x102) := by
  decide +kernel

/-- V219. -/
theorem test_srlil : runs (small.setL 3 0x80000000) [0x7c, 0xfb] (fun s => (s.setL 3 0x1).setPc 0x102) := by
  decide +kernel

/-- V218. -/
theorem test_srliw : runs (small.setW 2 0x8400) [0x7d, 0x52] (fun s => (s.setW 2 0x21).setPc 0x102) := by
  decide +kernel

/-- V206. -/
theorem test_srll :
    runs ((small.setL 2 0xab04).setL 1 0x80000421) [0x7e, 0x11] (fun s => (s.setL 1 0x8000042).setPc 0x102) := by
  decide +kernel

/-- V205. -/
theorem test_srlw :
    runs ((small.setW 2 0xab04).setW 1 0x8421) [0x7f, 0x11] (fun s => (s.setW 1 0x842).setPc 0x102) := by
  decide +kernel

/-- V59. -/
theorem test_stod :
    runs ((small.setD 0 0x4008000000000000).setL 1 0x2000) [0x80, 0x48]
      (fun s => (s.placeBytes 0x2000 [0x0, 0x0, 0x0, 0x0, 0x0, 0x0, 0x8, 0x40]).setPc 0x102) := by
  decide +kernel

/-- V58. -/
theorem test_stof :
    runs ((small.setF 0 0x40400000).setL 1 0x2000) [0x81, 0x48]
      (fun s => (s.placeBytes 0x2000 [0x0, 0x0, 0x40, 0x40]).setPc 0x102) := by
  decide +kernel

/-- V73. -/
theorem test_stoflags :
    runs ((small.setFlags 0x18).setL 1 0x2000) [0x82, 0x48]
      (fun s => (s.placeBytes 0x2000 [0x18, 0x0]).setPc 0x102) := by
  decide +kernel

/-- V57. -/
theorem test_stol :
    runs ((small.setL 1 0xccddeeff).setL 7 0x3000) [0x83, 0xb9, 0x02, 0x00]
      (fun s => (s.placeBytes 0x3002 [0xff, 0xee, 0xdd, 0xcc]).setPc 0x104) := by
  decide +kernel

/-- V61. -/
theorem test_stolb :
    runs ((small.setL 0 0x12345678).setL 1 0x2000) [0x84, 0x48]
      (fun s => (s.placeBytes 0x2000 [0x78]).setPc 0x102) := by
  decide +kernel

/-- V63. -/
theorem test_stolw :
    runs ((small.setL 1 0x12345678).setL 7 0x3000) [0x85, 0xb9, 0x02, 0x00]
      (fun s => (s.placeBytes 0x3002 [0x78, 0x56]).setPc 0x104) := by
  decide +kernel

/-- V54. -/
theorem test_stow :
    runs ((small.setW 0 0xbeef).setL 3 0xa) [0x86, 0x98, 0x02, 0x00]
      (fun s => (s.placeBytes 0xc [0xef, 0xbe]).setPc 0x104) := by
  decide +kernel

/-- V60. -/
theorem test_stowb :
    runs ((small.setW 0 0x11ee).setW 1 0x2222) [0x87, 0x08] (fun s => (s.setW 1 0x22ee).setPc 0x102) := by
  decide +kernel

/-- V115. -/
theorem test_subcl :
    runs ((small.setL 0 0x1).setL 1 0xfffffff0) [0x88, 0x48]
      (fun s => (s.setPc 0x100).raise (.notAvailable 0x100)) := by
  decide +kernel

/-- V119. -/
theorem test_subd :
    runs ((small.setD 0 0x4008000000000000).setD 1 0x3ff0000000000000) [0x89, 0x01]
      (fun s => (s.setD 1 0xc000000000000000).setPc 0x102) := by
  decide +kernel

/-- V118. -/
theorem test_subf : runs (small.setF 1 0x40400000) [0x8a, 0x09] (fun s => (s.setF 1 0x0).setPc 0x102) := by
  decide +kernel

/-- V113. -/
theorem test_subl : runs (small.setL 7 0xff8) [0x8b, 0xef, 0x06, 0x00] (fun s => (s.setL 7 0xff2).setPc 0x104) := by
  decide +kernel

/-- V117. -/
theorem test_subswl :
    runs ((small.setW 2 0xffff).setL 1 0x10000) [0x8c, 0x11] (fun s => (s.setL 1 0x10001).setPc 0x102) := by
  decide +kernel

/-- V116. -/
theorem test_subuwl :
    runs ((small.setW 2 0xffff).setL 1 0x10000) [0x8d, 0x11] (fun s => (s.setL 1 0x1).setPc 0x102) := by
  decide +kernel

/-- V112. -/
theorem test_subw : runs ((small.setW 0 0x1).setW 1 0x0) [0x8e, 0x01] (fun s => (s.setW 1 0xffff).setPc 0x102) := by
  decide +kernel

/-- V245. -/
theorem test_xorl : runs (small.setL 1 0x12345678) [0x8f, 0xc9] (fun s => (s.setL 1 0xedcba987).setPc 0x102) := by
  decide +kernel

/-- V244. -/
theorem test_xorw : runs (small.setW 1 0xabcd) [0x90, 0x09] (fun s => (s.setW 1 0x0).setPc 0x102) := by
  decide +kernel

/-! ## Values that meet the hypotheses of the statements -/

/-- Whether an outcome is a next state. -/
def completes (o : Out) : Bool :=
  match o with
  | .next _ => true
  | .fault _ => false
  | .refused _ => false

/-- The next state of an outcome that has one. -/
def after (o : Out) : State :=
  match o with
  | .next t => t
  | .fault _ => small
  | .refused _ => small

theorem eq_next {o : Out} (h : completes o = true) : o = .next (after o) := by
  cases o <;> simp_all [completes, after]

/-- Whether an outcome is the fault `x` taken on `s`. -/
def isTrap (o : Out) (s : State) (x : Fault) : Bool :=
  match o with
  | .next t => t == { s with status := .fault x }
  | .fault _ => false
  | .refused _ => false

theorem eq_trap {o : Out} {s : State} {x : Fault} (h : isTrap o s x = true) : o = trap s x := by
  cases o <;> simp_all [isTrap, trap]

theorem witness_DecodeEncodeRoundTrip :
    defaultParams.wf = true ∧ (Instr.gmov 3 ⟨.w, 4⟩ (.mreg ⟨.d, 7⟩)).wellFormed = true := by decide +kernel

theorem witness_DecodedBytesAreTheEncoding :
    defaultParams.wf = true ∧ decode defaultParams [0x65, 0xff] = .ok (.ret 0xff) := ⟨by decide +kernel, rfl⟩

/-- One byte, or pair of bytes, for each clause; the bounds of ranges where a clause has one. -/
theorem witness_UnassignedAndReservedPatternsAreRefused :
    (0x91 : Byte).toNat = 0x91 ∧ (0xf7 : Byte).toNat / 8 = 30 ∧ (0xe8 : Byte).toNat / 8 = 29 ∧
    (0xc8 : Byte).toNat / 8 = 25 ∧ (0xdf : Byte).toNat / 8 = 27 ∧ ((0xe0 : Byte).toNat / 8 = 28 ∧ (1 : Byte) ≠ 0) ∧
    ((0xf8 : Byte).toNat / 8 = 31 ∧ (0x28 : Byte).toNat / 32 % 2 = 1 ∧ (0x28 : Byte).toNat / 8 % 2 = 1) ∧
    (0x77 : Byte).toNat / 16 = 7 ∧ (0x1f : Byte).toNat / 32 = 0 ∧ (0x37 : Byte).toNat / 8 = 6 ∧
    32 ≤ (0x20 : Byte).toNat ∧ (0xb0 : Byte).toNat / 16 = 11 ∧ (0x03 : Byte).toNat % 8 = 3 ∧
    (0x0d : Byte).toNat % 16 = 13 ∧ (0x01 : Byte).toNat % 8 ≠ 0 ∧
    ((0x20 : Byte).toNat / 32 % 2 = 1 ∧ 0x71 ≤ (0x71 : Byte).toNat ∧ (0x77 : Byte).toNat ≤ 0x77) ∧
    ((0xc5 : Byte).toNat / 64 = 3 ∧ (0xc5 : Byte).toNat % 32 / 8 = 0 ∧ 5 ≤ (0xc5 : Byte).toNat % 8) := by decide

/-- A small machine with `leal 14 L1` at its pc. -/
def atLeal : State := small.placeBytes 0x100 [0x3b, 0xc1, 0x0e, 0x00, 0x00, 0x00]

theorem witness_StepRunsTheDecodedInstruction :
    atLeal.status = .running ∧ atLeal.pc.toNat % 2 = 0 ∧ (Instr.leal (.mema 14) 1).wellFormed = true ∧
    decode atLeal.params atLeal.fetchBytes = .ok (.leal (.mema 14) 1) :=
  ⟨rfl, by decide, by decide, rfl⟩

theorem witness_StepRunsTheEncodedInstruction :
    atLeal.params.wf = true ∧ atLeal.status = .running ∧ atLeal.pc.toNat % 2 = 0 ∧
    (Instr.leal (.mema 14) 1).wellFormed = true ∧
    atLeal.pc.toNat + (Instr.leal (.mema 14) 1).length ≤ atLeal.params.memSize ∧
    ∀ k b, (encode atLeal.params (.leal (.mema 14) 1))[k]? = some b → atLeal.mem.read (atLeal.pc.toNat + k) = b := by
  have he : encode atLeal.params (.leal (.mema 14) 1) = [0x3b, 0xc1, 0x0e, 0x00, 0x00, 0x00] := by decide +kernel
  refine ⟨by decide +kernel, rfl, by decide, by decide, by decide, fun k b h => ?_⟩
  rw [he] at h
  have hk : k < 6 := by
    by_contra hk
    rw [List.getElem?_eq_none (by simpa using hk)] at h
    simp at h
  have hall : ∀ k < 6, [0x3b, 0xc1, 0x0e, 0x00, 0x00, (0x00 : Byte)][k]? =
      some (atLeal.mem.read (atLeal.pc.toNat + k)) := by decide +kernel
  rw [hall k hk] at h
  exact Option.some.inj h

theorem witness_FetchFaults :
    (small.setPc 0x101).pc.toNat % 2 = 1 ∧
    decode small.params small.fetchBytes = .error (.illegalOpcode 0) ∧
    decode small.params (small.placeBytes 0x100 [0x52, 1]).fetchBytes = .error .reserved ∧
    decode small.params ((small.setPc 0xfffe).placeBytes 0xfffe [0x43, 0xe0]).fetchBytes = .error (.truncated 2) ∧
    (small.setPc 0x10000).pc.toNat % 2 = 0 ∧
    (small.setPc 0x10000).params.memSize ≤ (small.setPc 0x10000).pc.toNat :=
  ⟨by decide, rfl, rfl, rfl, by decide, by decide⟩

theorem witness_TerminalStatusIsKept :
    (small.setStatus .halted).status ≠ .running ∧
    (exec (.leave 3) small = .next (after (exec (.leave 3) small)) ∧ (after (exec (.leave 3) small)).status = .running) ∧
    exec (.leaveres 3 1) small = .next (after (exec (.leaveres 3 1) small)) :=
  ⟨by decide, ⟨eq_next (by decide +kernel), by decide +kernel⟩, eq_next (by decide +kernel)⟩

theorem witness_AFaultChangesOnlyTheStatus :
    small.status = .running ∧ step small = .next (after (step small)) ∧
    (after (step small)).status = .fault (.illegalOpcode 0x100 0) :=
  ⟨rfl, eq_next (by decide +kernel), by decide +kernel⟩

theorem small_inv : Inv small where
  params_wf := by decide +kernel
  mem_wf := by decide
  mem_below := by decide
  flags_high := by decide

theorem witness_EveryStepKeepsTheInvariant : Inv small ∧ step small = .next (after (step small)) :=
  ⟨small_inv, eq_next (by decide +kernel)⟩

/-- Values that are not all zero. -/
def other : Unspecified := { zeroUnspecified with flags := 31, mem := [(3, 1), (0xffff, 2)] }

theorem witness_StartState :
    small.params.wf = true ∧ other.mem.wf ∧ other.mem.below small.params.memSize ∧
    [(1 : Byte), 2, 3, 4, 5].length ≤ small.params.memSize ∧
    (0xffff : Long).toNat % 2 = 1 ∧ (0x10000 : Long).toNat % 2 = 0 ∧ small.params.memSize ≤ (0x10000 : Long).toNat := by
  decide +kernel

theorem witness_OnlyComparesAndMovflagsWriteFlags :
    (Instr.addw (.reg 1) 2).mnemonic ∉ flagWriters ∧
    exec (.addw (.reg 1) 2) small = .next (after (exec (.addw (.reg 1) 2) small)) :=
  ⟨by decide, eq_next (by decide +kernel)⟩

theorem witness_OnlyTransfersMoveThePc :
    (Instr.addw (.reg 1) 2).mnemonic ∉ transfers ∧
    exec (.addw (.reg 1) 2) small = .next (after (exec (.addw (.reg 1) 2) small)) ∧
    (after (exec (.addw (.reg 1) 2) small)).status = .running :=
  ⟨by decide, eq_next (by decide +kernel), by decide +kernel⟩

theorem witness_OnlyTheirWritersTouchMemoryAndFloatRegisters :
    exec (.cmpw (.reg 1) 2) small = .next (after (exec (.cmpw (.reg 1) 2) small)) ∧
    (Instr.cmpw (.reg 1) 2).mnemonic ∉ memoryWriters ∧ (Instr.cmpw (.reg 1) 2).mnemonic ∉ floatWriters ∧
    (Instr.cmpw (.reg 1) 2).mnemonic ∉ doubleWriters :=
  ⟨eq_next (by decide +kernel), by decide, by decide, by decide⟩

/-- An access that just fits and one that just does not. -/
theorem witness_MemReadAndMemWrite :
    small.mem.wf ∧ (0xfffc : Long).toNat + 4 ≤ small.params.memSize ∧
    small.params.memSize < (0xfffd : Long).toNat + 4 := by decide

theorem witness_QOperandValues :
    (QOp.mema 0xfffe).kind wordImms small = .mem 0xfffe ∧ (QOp.base 7).kind longImms small = .mem 0x3000 ∧
    (QOp.x (.b 1)).kind floatImms small = .mem 0x21 ∧ (QOp.bd2 1 0xffff).kind doubleImms small = .mem 0x20 ∧
    (QOp.base 0).kind byteImms small = .mem 0x20 :=
  ⟨rfl, rfl, rfl, by decide, rfl⟩

theorem witness_FailingOperandsTakeTheirFault :
    (QOp.mema 0xffff).word small = .error (.memoryBounds 0xffff) ∧
    (QOp.mema 0xfffd).long small = .error (.memoryBounds 0xfffd) ∧
    (QOp.mema 0xfffd).float small = .error (.memoryBounds 0xfffd) ∧
    (QOp.mema 0xfff9).double small = .error (.memoryBounds 0xfff9) ∧
    (QOp.mema 0x10000).byteW small = .error (.memoryBounds 0x10000) ∧
    (QOp.mema 0x10000).byteL small = .error (.memoryBounds 0x10000) ∧
    ((QOp.mema 0xffff).kind wordImms small = .mem 0xffff ∧ small.params.memSize < (0xffff : Long).toNat + 2) ∧
    ((QOp.mema 0xfffd).kind longImms small = .mem 0xfffd ∧ small.params.memSize < (0xfffd : Long).toNat + 4) ∧
    ((QOp.mema 0xfff9).kind doubleImms small = .mem 0xfff9 ∧ small.params.memSize < (0xfff9 : Long).toNat + 8) ∧
    ((QOp.mema 0x10000).kind byteImms small = .mem 0x10000 ∧ small.params.memSize < (0x10000 : Long).toNat + 1) ∧
    ((⟨.w, 4⟩ : GReg).groupFits 3 = true ∧ small.params.memSize < (0xfff9 : Long).toNat + (3 : SizeCode).bytes) :=
  ⟨rfl, rfl, rfl, rfl, rfl, rfl, ⟨rfl, by decide⟩, ⟨rfl, by decide⟩, ⟨rfl, by decide⟩, ⟨rfl, by decide⟩, by decide⟩

theorem witness_WordAndLongRegisterResults :
    ((QOp.reg 3).word small = .ok 0x13 ∧ QOp.immMinus1.word small = .ok 0xffff ∧
      (QOp.mema 0xfffe).word small = .ok 0) ∧
    ((QOp.reg 7).long small = .ok 0x3000 ∧ (QOp.imm2 0x8000).long small = .ok 0xffff8000 ∧
      (QOp.mema 0xfffc).long small = .ok 0) :=
  ⟨⟨rfl, rfl, rfl⟩, ⟨rfl, rfl, rfl⟩⟩

theorem witness_NarrowOperandResults :
    (QOp.reg 3).word small = .ok 0x13 ∧ (QOp.immv 0x80).byteW small = .ok 0x80 ∧ (QOp.reg 1).byteL small = .ok 0x21 :=
  ⟨rfl, rfl, rfl⟩

/-- Counts below, at and above the widths. -/
theorem witness_GeneralShiftsFollowTheirFormulas :
    (QOp.immv 15).byteW small = .ok 15 ∧ (QOp.immv 16).byteW small = .ok 16 ∧ (QOp.immv 255).byteW small = .ok 255 ∧
    QOp.imm0.byteL small = .ok 0 ∧ (QOp.immv 31).byteL small = .ok 31 ∧ (QOp.immv 32).byteL small = .ok 32 :=
  ⟨rfl, rfl, rfl, rfl, rfl, rfl⟩

theorem witness_DivideResults :
    ((QOp.reg 3).word small = .ok 0x13 ∧ (0x13 : Word) ≠ 0 ∧ ¬ (small.W 1 = 0x8000 ∧ (0x13 : Word) = 0xffff)) ∧
    (QOp.immMinus1.word small = .ok 0xffff ∧ (∀ k, (QOp.immMinus1 : QOp 16) ≠ .reg k) ∧
      ¬ (small.W 1 = 0x8000 ∧ (0xffff : Word) = 0xffff)) ∧
    (QOp.immMinus1.long small = .ok 0xffffffff ∧ (∀ k, (QOp.immMinus1 : QOp 32) ≠ .reg k) ∧
      ¬ (small.L 1 = 0x80000000 ∧ (0xffffffff : Long) = 0xffffffff)) ∧
    ¬ (small.L 1 = 0x80000000 ∧ (0xffff : Word) = 0xffff) :=
  ⟨⟨rfl, by decide, by decide⟩, ⟨rfl, by decide, by decide⟩, ⟨rfl, by decide, by decide⟩, by decide⟩

theorem witness_QuotientAndRemainderSatisfyTheDivisionLaw :
    (2 : Reg) ≠ 1 ∧ small.W 2 ≠ 0 ∧ small.L 2 ≠ 0 ∧ ¬ (small.W 1 = 0x8000 ∧ small.W 2 = 0xffff) ∧
    ¬ (small.L 1 = 0x80000000 ∧ small.L 2 = 0xffffffff) ∧ ¬ (small.L 1 = 0x80000000 ∧ small.W 2 = 0xffff) ∧
    exec (.divruw (.reg 2) 1) small = .next (after (exec (.divruw (.reg 2) 1) small)) ∧
    exec (.divrul (.reg 2) 1) small = .next (after (exec (.divrul (.reg 2) 1) small)) ∧
    exec (.divrulw (.reg 2) 1) small = .next (after (exec (.divrulw (.reg 2) 1) small)) ∧
    exec (.divrsw (.reg 2) 1) small = .next (after (exec (.divrsw (.reg 2) 1) small)) ∧
    exec (.divrsl (.reg 2) 1) small = .next (after (exec (.divrsl (.reg 2) 1) small)) ∧
    exec (.divrslw (.reg 2) 1) small = .next (after (exec (.divrslw (.reg 2) 1) small)) :=
  ⟨by decide, by decide, by decide, by decide, by decide, by decide, eq_next (by decide +kernel),
    eq_next (by decide +kernel), eq_next (by decide +kernel), eq_next (by decide +kernel),
    eq_next (by decide +kernel), eq_next (by decide +kernel)⟩

theorem witness_DivisionTraps :
    QOp.imm0.word small = .ok 0 ∧ (QOp.mema 0x8000).long small = .ok 0 ∧
    (QOp.immMinus1.word (small.setW 1 0x8000) = .ok 0xffff ∧ (small.setW 1 0x8000).W 1 = 0x8000) ∧
    (QOp.immMinus1.word (small.setL 1 0x80000000) = .ok 0xffff ∧ (small.setL 1 0x80000000).L 1 = 0x80000000) ∧
    QOp.immMinus1.long (small.setL 1 0x80000000) = .ok 0xffffffff :=
  ⟨rfl, rfl, ⟨rfl, by decide⟩, ⟨rfl, by decide⟩, rfl⟩

theorem witness_CarryInstructionsAreNotAvailable :
    (small.placeBytes 0x100 [0x05, 0x01]).status = .running ∧
    (small.placeBytes 0x100 [0x05, 0x01]).fetch = .ok (.addcl (.reg 0) 1) ∧
    (small.placeBytes 0x100 [0x88, 0x48]).fetch = .ok (.subcl (.base 1) 0) ∧
    (small.placeBytes 0x100 [0x05, 0xf0]).fetch = .error (.reservedEncoding 0x100) :=
  ⟨rfl, rfl, rfl, rfl⟩

theorem witness_IntegerComparePatterns :
    (QOp.reg 3).word small = .ok 0x13 ∧ QOp.immMinus1.long small = .ok 0xffffffff ∧
    (QOp.immv 0x80).byteW small = .ok 0x80 ∧ (QOp.reg 1).byteL small = .ok 0x21 :=
  ⟨rfl, rfl, rfl, rfl⟩

theorem witness_ConditionsAfterACompare :
    QOp.immMinus1.long small = .ok 0xffffffff ∧
    exec (.cmpl .immMinus1 1) small = .next (after (exec (.cmpl .immMinus1 1) small)) :=
  ⟨rfl, eq_next (by decide +kernel)⟩

theorem witness_FloatComparesSetOneFlag :
    QOp.imm1.float small = .ok 0x3f800000 ∧
    single.cmp (small.F 1).toNat 0x3f800000 = some .lt ∧
    single.cmp ((small.setF 1 0x3f800000).F 1).toNat 0x3f800000 = some .eq ∧
    single.cmp ((small.setF 1 0x7f800000).F 1).toNat 0x3f800000 = some .gt ∧
    single.cmp ((small.setF 1 0x7f800001).F 1).toNat 0x3f800000 = none ∧
    QOp.imm1.double small = .ok 0x3ff0000000000000 ∧
    double.cmp (small.D 1).toNat 0x3ff0000000000000 = some .lt ∧
    double.cmp ((small.setD 1 0x3ff0000000000000).D 1).toNat 0x3ff0000000000000 = some .eq ∧
    double.cmp ((small.setD 1 0x7ff0000000000000).D 1).toNat 0x3ff0000000000000 = some .gt ∧
    double.cmp ((small.setD 1 0x7ff0000000000001).D 1).toNat 0x3ff0000000000000 = none :=
  ⟨rfl, by decide +kernel, by decide +kernel, by decide +kernel, by decide +kernel, rfl, by decide +kernel,
    by decide +kernel, by decide +kernel, by decide +kernel⟩

theorem witness_FloatOrderIsThePatternOrder :
    0 ≤ single.infBits ∧ single.infBits ≤ single.infBits ∧ double.infBits ≤ double.infBits ∧
    single.infBits < 0x7f800001 % single.signWeight ∧ double.infBits < 0xffffffffffffffff % double.signWeight := by
  decide +kernel

theorem witness_FlagsSetAndAddressResults :
    (QOp.reg 3).word small = .ok 0x13 ∧ (QOp.mema 0xffffffff).kind longImms small = .mem 0xffffffff ∧
    (∀ a, (QOp.reg 3).kind longImms small ≠ .mem a) ∧ (QOp.reg 3).long small = .ok 0x23 :=
  ⟨rfl, rfl, fun _ h => (by cases h), rfl⟩

theorem witness_FloatMovesAndSigns :
    (QOp.reg 3).float small = .ok 0x33 ∧ QOp.immMinus1.double small = .ok 0xbff0000000000000 ∧
    (0x80000000 < (0xff800000 : Long).toNat ∧ (0xff800000 : Long).toNat ≤ 0xff800000) :=
  ⟨rfl, rfl, by decide⟩

/-- Operands with a result that is a value, and operands whose operation is invalid. -/
theorem witness_FloatArithmeticCompletes :
    QOp.imm0.float small = .ok 0 ∧ QOp.immMinus1.double small = .ok 0xbff0000000000000 ∧
    single.add (small.F 1).toNat 0 = some 0x31 ∧ single.div 0 0 = none ∧ double.sqrt 0xbff0000000000000 = none ∧
    double.convert single 0x7f800001 = none :=
  ⟨rfl, rfl, by decide +kernel, by decide +kernel, by decide +kernel, by decide +kernel⟩

/-- A tie, and the least magnitude that rounds to infinity. -/
theorem witness_RoundingIsToNearestEven :
    0 < 2 ∧ single.round 3 2 = 2 ∧ single.round 3 2 < single.infBits ∧ 1 < single.infBits ∧
    single.round ((2 ^ 25 - 1) * 2 ^ 252) 1 = single.infBits ∧
    double.round ((2 ^ 54 - 1) * 2 ^ 2044) 1 = double.infBits := by decide +kernel

/-- The least and the greatest finite pattern of each format, a zero, and a divisor that is none. -/
theorem witness_FloatOperationsRoundTheExactResult :
    0 < single.infBits ∧ single.infBits - 1 < single.infBits ∧ (1 : Nat) ≠ 0 ∧ 1 < double.infBits ∧
    double.infBits - 1 < double.infBits := by decide +kernel

theorem witness_SquareRootsAreRounded :
    0 < single.infBits ∧ single.infBits - 1 < single.infBits ∧ double.infBits - 1 < double.infBits := by decide +kernel

theorem witness_ConversionsToDoubleAreExact :
    QOp.immMinus1.long small = .ok 0xffffffff ∧ single.unpack (0x7fc00000 : Long).toNat = .nan ∧
    single.unpack (0xff800000 : Long).toNat = .inf true ∧ single.unpack (1 : Long).toNat = .fin false 1 :=
  ⟨rfl, by decide +kernel, by decide +kernel, by decide +kernel⟩

/-- The bounds of the ranges, and values just outside them: 4294967040, -1, 2147483647 and 2147483648. -/
theorem witness_TruncatingConversions :
    QOp.imm1.float small = .ok 0x3f800000 ∧ QOp.imm1.double small = .ok 0x3ff0000000000000 ∧
    single.trunc 0x4f7fffff = some 4294967040 ∧ single.trunc 0xbf800000 = some (-1) ∧
    double.trunc 0x41dfffffffc00000 = some 2147483647 ∧ double.trunc 0x41e0000000000000 = some 2147483648 ∧
    double.trunc 0xc1e0000000000000 = some (-2147483648) ∧ double.trunc 0x41efffffffe00000 = some 4294967295 ∧
    single.trunc 0x7f800000 = none :=
  ⟨rfl, rfl, by decide +kernel, by decide +kernel, by decide +kernel, by decide +kernel, by decide +kernel,
    by decide +kernel, by decide +kernel⟩

/-- The greatest finite pattern, the least and the greatest NaN, and one with its sign bit set. -/
theorem witness_FloatSpecialCases :
    single.infBits - 1 < single.infBits ∧ single.infBits - 1 ≠ 0 ∧ 0 < double.infBits ∧
    single.unpack 0x7f800001 = .nan ∧ single.unpack 0xffffffff = .nan ∧
    double.unpack 0x7ff0000000000001 = .nan ∧ double.unpack 0xffffffffffffffff = .nan ∧
    single.infBits < 0xffffffff % single.signWeight := by
  decide +kernel

/-- Destinations that just fit. -/
theorem witness_StoresToMemory :
    small.mem.wf ∧
    ((QOp.mema 0xfffe).kind wordImms small = .mem 0xfffe ∧ (0xfffe : Long).toNat + 2 ≤ small.params.memSize) ∧
    ((QOp.mema 0xfffc).kind longImms small = .mem 0xfffc ∧ (0xfffc : Long).toNat + 4 ≤ small.params.memSize) ∧
    ((QOp.mema 0xfff8).kind doubleImms small = .mem 0xfff8 ∧ (0xfff8 : Long).toNat + 8 ≤ small.params.memSize) ∧
    ((QOp.mema 0xffff).kind byteImms small = .mem 0xffff ∧ (0xffff : Long).toNat + 1 ≤ small.params.memSize) :=
  ⟨by decide, ⟨rfl, by decide⟩, ⟨rfl, by decide⟩, ⟨rfl, by decide⟩, ⟨rfl, by decide⟩⟩

theorem witness_GroupMovesComplete :
    (⟨.w, 4⟩ : GReg).groupFits 3 = true ∧ (⟨.d, 7⟩ : GReg).groupFits 3 = true ∧ small.mem.wf ∧
    (MOp.x (.b 7) = .mmema 0x3000 ∨ ∃ x, MOp.x (.b 7) = .x x ∧ x.ea small = 0x3000) ∧
    (0xfff8 : Long).toNat + (3 : SizeCode).bytes ≤ small.params.memSize :=
  ⟨by decide, by decide, by decide, .inr ⟨.b 7, rfl, rfl⟩, by decide⟩

/-- Registers outside a group, in its file and out of it, and its last register. -/
theorem witness_GroupWriteIsReadBack :
    (⟨.w, 2⟩ : GReg).groupFits 3 = true ∧ (⟨.w, 1⟩ : GReg).idx.val < (⟨.w, 2⟩ : GReg).idx.val ∧
    (2 + ((3 : SizeCode).bytes + RegFile.w.size - 1) / RegFile.w.size ≤ (⟨.w, 6⟩ : GReg).idx.val) ∧
    (RegFile.w.size ≤ (3 : SizeCode).bytes ∧ (⟨.w, 2⟩ : GReg).idx.val ≤ (⟨.w, 5⟩ : GReg).idx.val ∧
      (⟨.w, 5⟩ : GReg).idx.val < 2 + (3 : SizeCode).bytes / RegFile.w.size) ∧
    (0 : SizeCode).bytes < RegFile.w.size := by decide

/-- A condition that holds and one that does not; targets in memory that just fit, and that just do not. -/
theorem witness_JumpResults :
    condHolds small.flags .e = false ∧ condHolds small.flags .unc = true ∧
    (0xfffc : Long).toNat + 4 ≤ small.params.memSize ∧ small.params.memSize < (0xfffd : Long).toNat + 4 ∧
    (small.sp - BitVec.ofNat 32 (2 * (0x1800 : BitVec 16).toNat)).toNat + 4 ≤ small.params.memSize ∧
    small.params.memSize < (small.sp - BitVec.ofNat 32 (2 * (0x1801 : BitVec 16).toNat)).toNat + 4 := by decide

theorem witness_CallResults :
    small.mem.wf ∧ condHolds small.flags .e = false ∧ condHolds small.flags .ne = true ∧
    (JOp.sprmi 2).target (small.pc + BitVec.ofNat 32 (2 + (JOp.sprmi 2).extraBytes)) small = .ok 0 ∧
    (JOp.jmemai 0xfffd).target (small.pc + BitVec.ofNat 32 (2 + (JOp.jmemai 0xfffd).extraBytes)) small =
      .error (.memoryBounds 0xfffd) ∧
    (small.sp - 4).toNat + 4 ≤ small.params.memSize ∧
    small.params.memSize < ((small.setSp 2).sp - 4).toNat + 4 :=
  ⟨by decide, by decide, by decide, rfl, rfl, by decide, by decide⟩

theorem witness_ReturnResult :
    (small.setSp 0xfffc).sp.toNat + 4 ≤ small.params.memSize ∧
    small.params.memSize < (small.setSp 0xfffd).sp.toNat + 4 := by decide

/-- The state after an instruction. -/
def andThen (i : Instr) (s : State) : State := after (exec i s)

theorem witness_EnterResult :
    small.mem.wf ∧ (small.sp - 4).toNat + 4 ≤ small.params.memSize ∧
    small.params.memSize < ((small.setSp 3).sp - 4).toNat + 4 ∧
    exec (.pushl (.reg 6)) small = .next (andThen (.pushl (.reg 6)) small) ∧
    (andThen (.pushl (.reg 6)) small).faulted = false ∧
    exec (.movl (.reg 7) 6) (andThen (.pushl (.reg 6)) small) =
      .next (andThen (.movl (.reg 7) 6) (andThen (.pushl (.reg 6)) small)) ∧
    exec (.subl (.immv 510) 7) (andThen (.movl (.reg 7) 6) (andThen (.pushl (.reg 6)) small)) =
      .next (andThen (.subl (.immv 510) 7) (andThen (.movl (.reg 7) 6) (andThen (.pushl (.reg 6)) small))) :=
  ⟨by decide, by decide, by decide, eq_next (by decide +kernel), by decide +kernel, eq_next (by decide +kernel),
    eq_next (by decide +kernel)⟩

theorem witness_LeaveResult :
    (small.fp.toNat + 4 ≤ small.params.memSize ∧ (small.fp + 4).toNat + 4 ≤ small.params.memSize) ∧
    small.params.memSize < (small.setFp 0xfffd).fp.toNat + 4 ∧
    ((small.setFp 0xfffc).fp.toNat + 4 ≤ small.params.memSize ∧
      small.params.memSize < ((small.setFp 0xfffc).fp + 4).toNat + 4) ∧
    exec (.movl (.reg 6) 7) small = .next (andThen (.movl (.reg 6) 7) small) ∧
    exec (.popl (.reg 6)) (andThen (.movl (.reg 6) 7) small) =
      .next (andThen (.popl (.reg 6)) (andThen (.movl (.reg 6) 7) small)) ∧
    (andThen (.popl (.reg 6)) (andThen (.movl (.reg 6) 7) small)).faulted = false ∧
    exec (.ret 255) (andThen (.popl (.reg 6)) (andThen (.movl (.reg 6) 7) small)) =
      .next (andThen (.ret 255) (andThen (.popl (.reg 6)) (andThen (.movl (.reg 6) 7) small))) ∧
    (andThen (.ret 255) (andThen (.popl (.reg 6)) (andThen (.movl (.reg 6) 7) small))).faulted = false :=
  ⟨by decide, by decide, by decide, eq_next (by decide +kernel), eq_next (by decide +kernel), by decide +kernel,
    eq_next (by decide +kernel), by decide +kernel⟩

theorem witness_HaltAndNop : exec .halt small = .next (andThen .halt small) := eq_next (by decide +kernel)

/-- Stacks that just hold the value, and that just do not. -/
theorem witness_PushResults :
    small.mem.wf ∧ (QOp.reg 1).word small = .ok 0x11 ∧ (QOp.reg 7).long small = .ok 0x3000 ∧
    (QOp.reg 1).float small = .ok 0x31 ∧ (QOp.reg 1).double small = .ok 0x41 ∧
    ((small.setSp 8).sp - BitVec.ofNat 32 8).toNat + 8 ≤ small.params.memSize ∧
    small.params.memSize < ((small.setSp 7).sp - BitVec.ofNat 32 8).toNat + 8 :=
  ⟨by decide, rfl, rfl, rfl, rfl, by decide, by decide⟩

theorem witness_PopResults :
    ((small.setSp 0xfffe).sp.toNat + 2 ≤ small.params.memSize ∧ small.params.memSize < (small.setSp 0xffff).sp.toNat + 2) ∧
    ((small.setSp 0xfffc).sp.toNat + 4 ≤ small.params.memSize ∧ small.params.memSize < (small.setSp 0xfffd).sp.toNat + 4) ∧
    ((small.setSp 0xfff8).sp.toNat + 8 ≤ small.params.memSize ∧ small.params.memSize < (small.setSp 0xfff9).sp.toNat + 8) ∧
    ((6 : Reg) ≠ 7 ∧ small.mem.wf) ∧
    ((QOp.base 7).kind wordImms small = .mem 0x3000 ∧ (QOp.base 7).kind longImms small = .mem 0x3000 ∧
      (QOp.base 7).kind floatImms small = .mem 0x3000 ∧ (QOp.base 7).kind doubleImms small = .mem 0x3000) ∧
    ((0xfff8 : Long).toNat + 8 ≤ small.params.memSize ∧ small.params.memSize < (0xfff9 : Long).toNat + 8) :=
  ⟨by decide, by decide, by decide, by decide, ⟨rfl, rfl, rfl, rfl⟩, by decide⟩

/-- The full mask, on a stack that just holds it; and the first register that does not fit, with one that does before it. -/
theorem witness_PushregsResult :
    ((small.setSp 144).mem.wf ∧ (small.setSp 144).params.wf = true ∧
      ∀ n < 32, (0xffffffff : Long).getLsbD n = true →
        ((small.setSp 144).sp - BitVec.ofNat 32 (maskBytes ((0xffffffff : Long) <<< (31 - n) >>> (31 - n)))).toNat +
          (GReg.ofNumber n).file.size ≤ (small.setSp 144).params.memSize) ∧
    ((3 : Long).getLsbD 1 = true ∧
      ((small.setSp 2).sp - BitVec.ofNat 32 (maskBytes ((3 : Long) <<< 31 >>> 31))).toNat +
        (GReg.ofNumber 0).file.size ≤ small.params.memSize ∧
      small.params.memSize < ((small.setSp 2).sp - BitVec.ofNat 32 (maskBytes ((3 : Long) <<< 30 >>> 30))).toNat +
        (GReg.ofNumber 1).file.size) := by decide +kernel

/-- A stack with the long 0xfffb on top. -/
def lowStack : State := small.placeBytes 0x3000 [0xfb, 0xff, 0x00, 0x00]

/-- The full mask without sp, on a stack that just has it; the full mask with sp, whose lower registers come from 4 on; and the
first register that is not there, below one that is, for a mask without sp and for one with it. -/
theorem witness_PopregsResult :
    (∀ n < 32, (0xffff7fff : Long).getLsbD n = true →
      ((small.setSp 0xff74).sp + BitVec.ofNat 32 (maskBytes ((0xffff7fff : Long) >>> (n + 1) <<< (n + 1)))).toNat +
        (GReg.ofNumber n).file.size ≤ small.params.memSize) ∧
    (∀ n < 32, 15 ≤ n → (0xffffffff : Long).getLsbD n = true →
      (small.sp + BitVec.ofNat 32 (maskBytes ((0xffffffff : Long) >>> (n + 1) <<< (n + 1)))).toNat +
        (GReg.ofNumber n).file.size ≤ small.params.memSize) ∧
    small.mem.readLE (small.sp + BitVec.ofNat 32 (maskBytes ((0xffffffff : Long) >>> 16 <<< 16))).toNat 4 = 0 ∧
    (∀ n < 15, (0xffffffff : Long).getLsbD n = true →
      (4 + BitVec.ofNat 32 (maskBytes ((0xffffffff : Long) >>> (n + 1) <<< (n + 1) &&& 0x7fff)) : Long).toNat +
        (GReg.ofNumber n).file.size ≤ small.params.memSize) ∧
    ((small.setSp 0xfffe).sp.toNat + (GReg.ofNumber 1).file.size ≤ small.params.memSize ∧
      small.params.memSize < ((small.setSp 0xfffe).sp + BitVec.ofNat 32 (maskBytes ((3 : Long) >>> 1 <<< 1))).toNat +
        (GReg.ofNumber 0).file.size) ∧
    (lowStack.sp.toNat + (GReg.ofNumber 15).file.size ≤ lowStack.params.memSize ∧
      lowStack.params.memSize < (BitVec.ofNat 32 (lowStack.mem.readLE lowStack.sp.toNat 4) + 4 : Long).toNat +
        (GReg.ofNumber 0).file.size) := by decide +kernel

/-- The least and the greatest bit of a mask, sp among the registers. -/
theorem witness_RegisterMasksAreOnePushOrPopAtATime :
    (0x80008001 : Long).getLsbD 0 = true ∧ (∀ j < 0, (0x80008001 : Long).getLsbD j = false) ∧
    exec (pushInstr (GReg.ofNumber 0)) small = .next (andThen (pushInstr (GReg.ofNumber 0)) small) ∧
    (andThen (pushInstr (GReg.ofNumber 0)) small).faulted = false ∧
    exec (.pushregs 0x80008000) { andThen (pushInstr (GReg.ofNumber 0)) small with pc := small.pc } =
      .next (andThen (.pushregs 0x80008000) { andThen (pushInstr (GReg.ofNumber 0)) small with pc := small.pc }) ∧
    (0x80008001 : Long).getLsbD 31 = true ∧ (∀ j < 32, 31 < j → (0x80008001 : Long).getLsbD j = false) ∧
    exec (popInstr (GReg.ofNumber 31)) small = .next (andThen (popInstr (GReg.ofNumber 31)) small) ∧
    (andThen (popInstr (GReg.ofNumber 31)) small).faulted = false ∧
    exec (.popregs 0x00008001) { andThen (popInstr (GReg.ofNumber 31)) small with pc := small.pc } =
      .next (andThen (.popregs 0x00008001) { andThen (popInstr (GReg.ofNumber 31)) small with pc := small.pc }) ∧
    (andThen (.popregs 0x00008001) { andThen (popInstr (GReg.ofNumber 31)) small with pc := small.pc }).faulted = false :=
  ⟨by decide, by decide, eq_next (by decide +kernel), by decide +kernel, eq_next (by decide +kernel), by decide, by decide,
    eq_next (by decide +kernel), by decide +kernel, eq_next (by decide +kernel), by decide +kernel⟩

theorem witness_PopregsUndoesPushregs :
    small.mem.wf ∧ small.params.wf = true ∧ (0xffff7fff : Long).getLsbD 15 = false ∧
    exec (.pushregs 0xffff7fff) small = .next (andThen (.pushregs 0xffff7fff) small) ∧
    (andThen (.pushregs 0xffff7fff) small).faulted = false :=
  ⟨by decide, by decide +kernel, by decide, eq_next (by decide +kernel), by decide +kernel⟩

theorem witness_EntersavAndLeaveresResults :
    exec (.enter 255) small = .next (andThen (.enter 255) small) ∧ (andThen (.enter 255) small).faulted = false ∧
    exec (.pushregs 0xffffffff) (andThen (.enter 255) small) =
      .next (andThen (.pushregs 0xffffffff) (andThen (.enter 255) small)) ∧
    (andThen (.pushregs 0xffffffff) (andThen (.enter 255) small)).faulted = false ∧
    exec (.popregs 0x4000) small = .next (andThen (.popregs 0x4000) small) ∧
    (andThen (.popregs 0x4000) small).faulted = false ∧
    exec (.leave 255) (andThen (.popregs 0x4000) small) = .next (andThen (.leave 255) (andThen (.popregs 0x4000) small)) ∧
    (andThen (.leave 255) (andThen (.popregs 0x4000) small)).faulted = false ∧
    (small.mem.wf ∧ small.params.wf = true ∧
      4 + 2 * (255 : Byte).toNat + maskBytes 0xffffffff ≤ (small.setSp 658).sp.toNat ∧
      (small.setSp 658).sp.toNat ≤ small.params.memSize) ∧
    ((0xffff3fff : Long).getLsbD 14 = false ∧ (0xffff3fff : Long).getLsbD 15 = false ∧
      (small.setSp 0xff78).sp.toNat + maskBytes 0xffff3fff ≤ small.params.memSize ∧
      (small.setFp 0xfff8).fp.toNat + 8 ≤ small.params.memSize) :=
  ⟨eq_next (by decide +kernel), by decide +kernel, eq_next (by decide +kernel), by decide +kernel,
    eq_next (by decide +kernel), by decide +kernel, eq_next (by decide +kernel), by decide +kernel, by decide +kernel,
    by decide +kernel⟩

/-- The four places of a fault: in enter, in pushregs after it, in popregs, in leave after it. -/
theorem witness_EntersavAndLeaveresResults_faults :
    exec (.enter 0) (small.setSp 3) = trap (small.setSp 3) (.memoryBounds 0xffffffff) ∧
    (exec (.enter 0) (small.setSp 6) = .next (andThen (.enter 0) (small.setSp 6)) ∧
      (andThen (.enter 0) (small.setSp 6)).faulted = false ∧
      exec (.pushregs 0x100) (andThen (.enter 0) (small.setSp 6)) =
        trap (andThen (.enter 0) (small.setSp 6)) (.memoryBounds 0xfffffffe)) ∧
    exec (.popregs 1) (small.setSp 0xffff) = trap (small.setSp 0xffff) (.memoryBounds 0xffff) ∧
    (exec (.popregs 1) (small.setFp 0xfffd) = .next (andThen (.popregs 1) (small.setFp 0xfffd)) ∧
      (andThen (.popregs 1) (small.setFp 0xfffd)).faulted = false ∧
      exec (.leave 0) (andThen (.popregs 1) (small.setFp 0xfffd)) =
        trap (andThen (.popregs 1) (small.setFp 0xfffd)) (.memoryBounds 0xfffd)) :=
  ⟨eq_trap (by decide +kernel), ⟨eq_next (by decide +kernel), by decide +kernel, eq_trap (by decide +kernel)⟩,
    eq_trap (by decide +kernel), eq_next (by decide +kernel), by decide +kernel, eq_trap (by decide +kernel)⟩

theorem witness_ReturnsUndoTheirEntries :
    small.mem.wf ∧ small.params.wf = true ∧ exec (.callf 0xffffff) small = .next (andThen (.callf 0xffffff) small) ∧
    (andThen (.callf 0xffffff) small).faulted = false ∧ small.sp.toNat + 4 ≤ small.params.memSize ∧
    exec (.enter 255) small = .next (andThen (.enter 255) small) ∧ (andThen (.enter 255) small).faulted = false :=
  ⟨by decide, by decide +kernel, eq_next (by decide +kernel), by decide +kernel, by decide, eq_next (by decide +kernel),
    by decide +kernel⟩

end Sys2Proof.Tests
end

section
/-! PROOFS. Every step keeps the invariant (00_scope.md R6, 10_state.md R30, 20_memory.md R50). The invariant speaks of
parameters, memory and flags alone, so it is enough to know, once for each shared operation, that it stores inside MEMSIZE,
and for the compares and movflags that what they write has bits 15:5 zero. -/

namespace Sys2Proof.Machine

/-! ## Single updates -/

/-- The invariant depends on the parameters, the memory and flags alone. -/
theorem Inv.of_frame {s t : State} (h : Inv s) (hparams : t.params = s.params) (hmem : t.mem = s.mem)
    (hflags : t.flags = s.flags) : Inv t where
  params_wf := hparams ▸ h.params_wf
  mem_wf := hmem ▸ h.mem_wf
  mem_below := by rw [hmem, hparams]; exact h.mem_below
  flags_high := hflags ▸ h.flags_high

section
variable {s : State}

theorem Inv.setW (h : Inv s) (k : Reg) (v : Word) : Inv (s.setW k v) := h.of_frame rfl rfl rfl
theorem Inv.setL (h : Inv s) (k : Reg) (v : Long) : Inv (s.setL k v) := h.of_frame rfl rfl rfl
theorem Inv.setF (h : Inv s) (k : Reg) (v : Long) : Inv (s.setF k v) := h.of_frame rfl rfl rfl
theorem Inv.setD (h : Inv s) (k : Reg) (v : Quad) : Inv (s.setD k v) := h.of_frame rfl rfl rfl
theorem Inv.setPc (h : Inv s) (v : Long) : Inv (s.setPc v) := h.of_frame rfl rfl rfl
theorem Inv.setStatus (h : Inv s) (v : Status) : Inv (s.setStatus v) := h.of_frame rfl rfl rfl
theorem Inv.raise (h : Inv s) (x : Fault) : Inv (s.raise x) := h.of_frame rfl rfl rfl
theorem Inv.drop (h : Inv s) (n : Nat) : Inv (s.drop n) := h.setL _ _

theorem Inv.setG (h : Inv s) (g : GReg) (v : Nat) : Inv (s.setG g v) := h.of_frame (by simp) (by simp) (by simp)

theorem Inv.putF (h : Inv s) (k : Reg) (v : Option Nat) : Inv (s.putF k v) := by
  obtain ⟨x, c, e⟩ := s.putF_frame k v
  exact e ▸ h.of_frame rfl rfl rfl

theorem Inv.putD (h : Inv s) (k : Reg) (v : Option Nat) : Inv (s.putD k v) := by
  obtain ⟨x, c, e⟩ := s.putD_frame k v
  exact e ▸ h.of_frame rfl rfl rfl

theorem Inv.putTrunc (h : Inv s) (k : Reg) (lo hi : Int) (v : Option Int) : Inv (s.putTrunc k lo hi v) := by
  obtain ⟨x, c, e⟩ := s.putTrunc_frame k lo hi v
  exact e ▸ h.of_frame rfl rfl rfl

theorem Inv.remainderW (h : Inv s) (q : QOp 16) (v : Word) : Inv (s.remainderW q v) := by
  unfold State.remainderW
  split
  · exact h.setW _ _
  · exact h

theorem Inv.remainderL (h : Inv s) (q : QOp 32) (v : Long) : Inv (s.remainderL q v) := by
  unfold State.remainderL
  split
  · exact h.setL _ _
  · exact h

/-- A number stored inside MEMSIZE (20_memory.md R53). -/
theorem Inv.setMem_writeLE (h : Inv s) (a n v : Nat) (hfit : a + n ≤ s.params.memSize) :
    Inv (s.setMem (s.mem.writeLE a n v)) where
  params_wf := h.params_wf
  mem_wf := Memory.wf_writeLE _ _ _ _ h.mem_wf
  mem_below := Memory.below_writeLE _ _ _ _ _ h.mem_below hfit
  flags_high := h.flags_high

/-! ## The writers of flags -/

theorem Inv.setFlags (h : Inv s) (v : Word) (hv : v >>> 5 = 0) : Inv (s.setFlags v) where
  params_wf := h.params_wf
  mem_wf := h.mem_wf
  mem_below := h.mem_below
  flags_high := hv

/-- movflags keeps only the five bits that flags can hold (40_data_movement.md R160). -/
theorem flagBits_high (v : Word) : flagBits v >>> 5 = 0 := by
  rw [flagBits, BitVec.ushiftRight_and_distrib]
  exact BitVec.and_zero

/-- A fixed-point compare writes no bit above 4 (44_convert_compare.md R320). -/
theorem icmp_high {n : Nat} (a b : BitVec n) : icmp a b >>> 5 = 0 := by
  rcases icmp_patterns a b with e | e | e | e | e <;> rw [e] <;> rfl

/-- A floating compare writes no bit above 4 (44_convert_compare.md R320). -/
theorem Inv.setOrdering (h : Inv s) (o : Option Ordering) : Inv (s.setOrdering o) := by
  obtain ⟨x, c, hx, e⟩ := s.setOrdering_frame o
  have hhigh : x >>> 5 = 0 := by rcases hx with rfl | rfl | rfl <;> rfl
  exact e ▸ (h.setFlags x hhigh).of_frame rfl rfl rfl

end

/-! ## Results and outcomes -/

/-- What an operation answers, where it raises no fault, meets the invariant. -/
def InvResult (r : Result) : Prop := ∀ t, r = .ok t → Inv t

/-- The next state an instruction answers meets the invariant. -/
def InvOut (o : Out) : Prop := ∀ t, o = .next t → Inv t

theorem InvResult.ok {s : State} (h : Inv s) : InvResult (.ok s) := by
  rintro _ ⟨⟩
  exact h

theorem InvResult.error (x : Fault) : InvResult (.error x) := nofun

/-- In a sequence it is enough that the last operation answers a state with the invariant. -/
theorem InvResult.bind {α : Type} {x : Except Fault α} {f : α → Result} (hf : ∀ a, x = .ok a → InvResult (f a)) :
    InvResult (x >>= f) := by
  intro t ht
  obtain ⟨a, hx, hfa⟩ := bind_eq_ok.1 ht
  exact hf a hx t hfa

/-- A sequence that ends in an update of the state. -/
theorem InvResult.value {α : Type} {x : Except Fault α} {f : α → State} (hf : ∀ a, x = .ok a → Inv (f a)) :
    InvResult (do let a ← x; return f a) :=
  .bind fun a hx => .ok (hf a hx)

/-- An instruction ends in the state of its result, or in the fault taken on the state it started in (R401). -/
theorem InvResult.finish {s : State} {r : Result} (hr : InvResult r) (h : Inv s) : InvOut (finish s r) := by
  intro t ht
  rcases finish_eq_next.1 ht with e | ⟨x, -, rfl⟩
  · exact hr t e
  · exact h.raise x

theorem InvResult.complete {s : State} {n : Nat} {r : Result} (hr : InvResult r) (h : Inv s) :
    InvOut (complete s n r) := by
  intro t ht
  rcases complete_eq_next.1 ht with ⟨u, e, rfl⟩ | ⟨x, -, rfl⟩
  · exact (hr u e).setPc _
  · exact h.raise x

/-! ## Operations over memory, the stack and operands -/

section
variable {s : State}

theorem Inv.memWrite (h : Inv s) (a : Long) (n v : Nat) : InvResult (s.memWrite a n v) := by
  intro t ht
  obtain ⟨hfit, rfl⟩ := State.memWrite_eq_ok.1 ht
  exact h.setMem_writeLE _ _ _ hfit

theorem Inv.push (h : Inv s) (n v : Nat) : InvResult (s.push n v) :=
  .value fun t ht => (h.memWrite _ _ _ t ht).setL _ _

theorem Inv.popReg (h : Inv s) (g : GReg) : InvResult (s.popReg g) :=
  .value fun _ _ => (h.setG _ _).drop _

theorem Inv.pushEach (bmsk : Long) (ns : List Nat) : ∀ {s : State}, Inv s → InvResult (pushEach bmsk ns s) := by
  induction ns with
  | nil => exact .ok
  | cons n ns ih =>
    intro s h
    cases hn : bmsk.getLsbD n with
    | false =>
      rw [pushEach_off hn]
      exact ih h
    | true =>
      intro t ht
      obtain ⟨u, hu, ht⟩ := (pushEach_on hn).1 ht
      exact ih (h.push _ _ u hu) t ht

theorem Inv.popEach (bmsk : Long) (ns : List Nat) : ∀ {s : State}, Inv s → InvResult (popEach bmsk ns s) := by
  induction ns with
  | nil => exact .ok
  | cons n ns ih =>
    intro s h
    cases hn : bmsk.getLsbD n with
    | false =>
      rw [popEach_off hn]
      exact ih h
    | true =>
      intro t ht
      obtain ⟨u, hu, ht⟩ := (popEach_on hn).1 ht
      exact ih (h.popReg _ u hu) t ht

theorem Inv.pushMask (h : Inv s) (bmsk : Long) : InvResult (s.pushMask bmsk) := Inv.pushEach _ _ h

theorem Inv.popMask (h : Inv s) (bmsk : Long) : InvResult (s.popMask bmsk) := Inv.popEach _ _ h

theorem Inv.enterFrame (h : Inv s) (stkc : Byte) : InvResult (s.enterFrame stkc) :=
  .value fun t ht => ((h.memWrite _ _ _ t ht).setL _ _).setL _ _

theorem Inv.returnFrame (h : Inv s) (stkc : Byte) : InvResult (s.returnFrame stkc) :=
  .value fun _ _ => (h.setL _ _).setPc _

theorem Inv.leaveFrame (h : Inv s) (stkc : Byte) : InvResult (s.leaveFrame stkc) :=
  .bind fun _ _ => .value fun _ _ => ((h.setL _ _).setL _ _).setPc _

theorem Inv.callTo (h : Inv s) (npc target : Long) : InvResult (s.callTo npc target) :=
  .value fun t ht => (h.push _ _ t ht).setPc _

/-- A store to a q-operand: a register, memory, or the fault of an immediate (30_encoding.md R103). -/
theorem Inv.store (h : Inv s) {n : Nat} {setReg : Reg → BitVec n → State} (hreg : ∀ k v, Inv (setReg k v))
    (v : BitVec n) (k : QKind n) : InvResult (k.store setReg v s) := by
  cases k with
  | reg k => exact .ok (hreg k v)
  | imm u => exact .error _
  | mem a => exact h.memWrite _ _ _

theorem Inv.groupWrite (h : Inv s) (g : GReg) (n : SizeCode) (v : Nat) : InvResult (g.groupWrite n v s) := by
  intro t ht
  obtain ⟨hmem, hparams, hflags, -⟩ := GReg.groupWrite_frame g n v s t ht
  exact h.of_frame hparams hmem hflags

/-- A store to an m-operand (40_data_movement.md R157). -/
theorem Inv.writeM (h : Inv s) (m : MOp) (n : SizeCode) (v : Nat) : InvResult (m.write n v s) := by
  cases m with
  | mmema a => exact h.memWrite _ _ _
  | mreg g => exact h.groupWrite _ _ _
  | x xm => exact h.memWrite _ _ _

/-- leal writes its register, whatever its operand is (40_data_movement.md R158). -/
theorem Inv.leal (h : Inv s) (q : QOp 32) (r : Reg) : InvOut (execLeal q r s) := by
  refine InvResult.complete ?_ h
  cases q.kind longImms s <;> exact .ok (h.setL _ _)

/-- jump sets the pc alone, its condition holding or not (45_control_stack_misc.md R342). -/
theorem Inv.jump (h : Inv s) (c : Cond) (j : JOp) : InvOut (execJump c j s) := by
  refine InvResult.finish ?_ h
  split
  · exact .value fun _ _ => h.setPc _
  · exact .ok (h.setPc _)

/-- call pushes and sets the pc, or sets the pc alone (45_control_stack_misc.md R345). -/
theorem Inv.call (h : Inv s) (c : Cond) (j : JOp) : InvOut (execCall c j s) := by
  refine InvResult.finish ?_ h
  split
  · exact .bind fun _ _ => h.callTo _ _
  · exact .ok (h.setPc _)

end

/-! ## Every instruction -/

/-- Every instruction keeps the invariant. The arms are grouped by what the instruction writes. -/
theorem Inv.exec {s : State} (h : Inv s) (i : Instr) : InvOut (exec i s) := by
  cases i with
  -- a word register, from one operand
  | addw | subw | negw | muluw | mulsw | absw | andw | orw | xorw | notw | movw | movbw | cvtbzw | cvtbsw
  | slw | srlw | sraw | rlw | rrw =>
    exact InvResult.complete (.value fun _ _ => h.setW _ _) h
  -- a word register, by a count in the instruction
  | sliw | srliw | sraiw | rliw | rriw => exact InvResult.complete (.ok (h.setW _ _)) h
  -- a long register, from one operand
  | addl | adduwl | addswl | subl | subuwl | subswl | negl | mulul | mulsl | muluwl | mulswl | absl | andl | orl
  | xorl | notl | movl | movbl | movwl | cvtbzl | cvtbsl | cvtwzl | cvtwsl | sll | srll | sral | rll | rrl =>
    exact InvResult.complete (.value fun _ _ => h.setL _ _) h
  | slil | srlil | srail | rlil | rril => exact InvResult.complete (.ok (h.setL _ _)) h
  | leal q r => exact h.leal q r
  -- a float or double register, a pattern or the result of an operation that may be a NaN
  | movf | negf | absf | cvtulf | cvtslf => exact InvResult.complete (.value fun _ _ => h.setF _ _) h
  | movd | negd | absd | cvtuld | cvtsld => exact InvResult.complete (.value fun _ _ => h.setD _ _) h
  | addf | subf | mulf | divf | sqrtf | cvtdf => exact InvResult.complete (.value fun _ _ => h.putF _ _) h
  | addd | subd | muld | divd | sqrtd | cvtfd => exact InvResult.complete (.value fun _ _ => h.putD _ _) h
  | cvttful | cvttfsl | cvttdul | cvttdsl =>
    exact InvResult.complete (.value fun _ _ => h.putTrunc _ _ _ _) h
  -- quotients and remainders, after the tests of the divisor
  | divuw | remuw | remsw => exact InvResult.complete (.bind fun _ _ => .value fun _ _ => h.setW _ _) h
  | divsw =>
    exact InvResult.complete (.bind fun _ _ => .bind fun _ _ => .value fun _ _ => h.setW _ _) h
  | divul | remul | remsl => exact InvResult.complete (.bind fun _ _ => .value fun _ _ => h.setL _ _) h
  | divsl =>
    exact InvResult.complete (.bind fun _ _ => .bind fun _ _ => .value fun _ _ => h.setL _ _) h
  | divruw =>
    exact InvResult.complete (.bind fun _ _ => .value fun _ _ => (h.setW _ _).remainderW _ _) h
  | divrul =>
    exact InvResult.complete (.bind fun _ _ => .value fun _ _ => (h.setL _ _).remainderL _ _) h
  | divrulw =>
    exact InvResult.complete (.bind fun _ _ => .value fun _ _ => (h.setL _ _).remainderW _ _) h
  | divrsw =>
    exact InvResult.complete
      (.bind fun _ _ => .bind fun _ _ => .value fun _ _ => (h.setW _ _).remainderW _ _) h
  | divrsl =>
    exact InvResult.complete
      (.bind fun _ _ => .bind fun _ _ => .value fun _ _ => (h.setL _ _).remainderL _ _) h
  | divrslw =>
    exact InvResult.complete
      (.bind fun _ _ => .bind fun _ _ => .value fun _ _ => (h.setL _ _).remainderW _ _) h
  -- flags
  | cmpw | cmpl | cmpwb | cmplb =>
    exact InvResult.complete (.value fun _ _ => h.setFlags _ (icmp_high _ _)) h
  | cmpf | cmpd => exact InvResult.complete (.value fun _ _ => h.setOrdering _) h
  | movflags => exact InvResult.complete (.value fun _ _ => h.setFlags _ (flagBits_high _)) h
  -- stores to an operand
  | stow | stowb | stolw | stoflags | set0w | set1w =>
    exact InvResult.complete (h.store (fun _ _ => h.setW _ _) _ _) h
  | stol | stolb | set0l | set1l => exact InvResult.complete (h.store (fun _ _ => h.setL _ _) _ _) h
  | stof => exact InvResult.complete (h.store h.setF _ _) h
  | stod => exact InvResult.complete (h.store h.setD _ _) h
  | gmov => exact InvResult.complete (.bind fun _ _ => h.groupWrite _ _ _) h
  | gsto => exact InvResult.complete (.bind fun _ _ => h.writeM _ _ _) h
  -- the stack
  | pushw | pushl | pushf | pushd => exact InvResult.complete (.bind fun _ _ => h.push _ _) h
  | popw =>
    exact InvResult.complete (.bind fun _ _ => .value fun t ht => (h.store h.setW _ _ t ht).drop _) h
  | popl =>
    exact InvResult.complete (.bind fun _ _ => .value fun t ht => (h.store h.setL _ _ t ht).drop _) h
  | popf =>
    exact InvResult.complete (.bind fun _ _ => .value fun t ht => (h.store h.setF _ _ t ht).drop _) h
  | popd =>
    exact InvResult.complete (.bind fun _ _ => .value fun t ht => (h.store h.setD _ _ t ht).drop _) h
  | pushregs bmsk => exact InvResult.complete (h.pushMask bmsk) h
  | popregs bmsk => exact InvResult.complete (h.popMask bmsk) h
  | enter stkc => exact InvResult.complete (h.enterFrame stkc) h
  | entersav stkc bmsk =>
    exact InvResult.complete (.bind fun t ht => (h.enterFrame stkc t ht).pushMask bmsk) h
  -- transfers of control
  | jump c j => exact h.jump c j
  | jumpf | jumpb => exact InvResult.finish (.ok (h.setPc _)) h
  | call c j => exact h.call c j
  | callf | callb => exact InvResult.finish (h.callTo _ _) h
  | ret stkc => exact InvResult.finish (h.returnFrame stkc) h
  | leave stkc => exact InvResult.finish (h.leaveFrame stkc) h
  | leaveres stkc bmsk =>
    exact InvResult.finish (.bind fun t ht => (h.popMask bmsk t ht).leaveFrame stkc) h
  -- no register, memory or flags at all
  | addcl | subcl => exact InvResult.finish (.error _) h
  | halt => exact InvResult.complete (.ok (h.setStatus _)) h
  | nop => exact InvResult.complete (.ok h) h

/-- One step: an instruction, the fault of its fetch, or nothing where the machine does not run. -/
theorem Inv.step {s : State} (h : Inv s) : InvOut (step s) := by
  unfold Machine.step
  split
  · split
    · exact h.exec _
    · rintro _ ⟨⟩
      exact h.raise _
  · rintro _ ⟨⟩
    exact h
  · rintro _ ⟨⟩
    exact h

/-- Settles O11, instruction by instruction through the operations they are made of. -/
theorem everyStepKeepsTheInvariant : Obligations.EveryStepKeepsTheInvariant :=
  fun _ t h ht => h.step t ht

end Sys2Proof.Machine
end

section
/-! PROOFS. Floating operations round the exact result (44_convert_compare.md R300 items 2 and 3). The magnitudes of the
patterns rise strictly, `FloatFormat.round` first finds the two neighbouring patterns that bracket its argument
and then chooses between them at their midpoint, and each operation hands it the exact magnitude of its result. -/

namespace Sys2Proof.Machine

/-! ## The formats -/

/-- What the two formats have in common that the proofs use: a fraction field, and an exponent field in which the
bias is not 0. -/
structure FloatFormat.Regular (fmt : FloatFormat) : Prop where
  one_le_fracBits : 1 ≤ fmt.fracBits
  two_le_expBits : 2 ≤ fmt.expBits

theorem FloatFormat.regular_of_standard {fmt : FloatFormat} (h : fmt = single ∨ fmt = double) : fmt.Regular := by
  rcases h with rfl | rfl <;> exact ⟨by decide, by decide⟩

namespace FloatFormat

variable {fmt : FloatFormat}

theorem infBits_lt_signWeight (fmt : FloatFormat) : fmt.infBits < fmt.signWeight := by
  have hE := Nat.two_pow_pos fmt.expBits
  have hF := Nat.two_pow_pos fmt.fracBits
  rw [infBits, signWeight, Nat.add_comm, Nat.pow_add]
  exact Nat.mul_lt_mul_of_pos_right (by omega) hF

/-- The sign bit and the other bits of a pattern are read back. -/
theorem unpack_pack {x : Nat} (neg : Bool) (hx : x < fmt.infBits) :
    fmt.unpack (fmt.pack neg x) = .fin neg (fmt.magnitude x) := by
  have hx' : x < fmt.signWeight := hx.trans fmt.infBits_lt_signWeight
  cases neg with
  | false => simp [unpack, pack, Nat.div_eq_of_lt hx', Nat.mod_eq_of_lt hx', hx]
  | true =>
    have hdiv : (fmt.signWeight + x) / fmt.signWeight = 1 := by
      rw [Nat.add_div_left _ (by omega), Nat.div_eq_of_lt hx']
    simp [unpack, pack, hdiv, Nat.mod_eq_of_lt hx', hx]

/-! ## The magnitude of a pattern -/

/-- The number 1 is a positive number of units. -/
theorem one_cast_pos (fmt : FloatFormat) : (0 : ℚ) < fmt.one := by
  simp [one]

/-- The magnitude of the pattern with exponent field 0. -/
theorem magnitude_of_lt {m : Nat} (hm : m < 2 ^ fmt.fracBits) : fmt.magnitude m = m := by
  simp [magnitude, Nat.div_eq_of_lt hm]

/-- The magnitude of the pattern with exponent field `e + 1` and fraction `f`. -/
theorem magnitude_normal (e : Nat) {f : Nat} (hf : f < 2 ^ fmt.fracBits) :
    fmt.magnitude ((e + 1) * 2 ^ fmt.fracBits + f) = (2 ^ fmt.fracBits + f) * 2 ^ e := by
  have hdiv : ((e + 1) * 2 ^ fmt.fracBits + f) / 2 ^ fmt.fracBits = e + 1 := by
    rw [Nat.mul_comm, Nat.mul_add_div (Nat.two_pow_pos _), Nat.div_eq_of_lt hf, Nat.add_zero]
  have hmod : ((e + 1) * 2 ^ fmt.fracBits + f) % 2 ^ fmt.fracBits = f := by
    rw [Nat.mul_comm, Nat.mul_add_mod, Nat.mod_eq_of_lt hf]
  rw [magnitude, hdiv, hmod]

/-- The patterns as multiples of a power of two: `m` units of 2 ^ e, the fraction with its leading bit, which is absent
only where `e` is 0, and which may have overflowed to the next power of two. -/
theorem magnitude_scaled {e m : Nat} (hlo : e = 0 ∨ 2 ^ fmt.fracBits ≤ m) (hhi : m ≤ 2 * 2 ^ fmt.fracBits) :
    fmt.magnitude (e * 2 ^ fmt.fracBits + m) = m * 2 ^ e := by
  rcases Nat.lt_or_ge m (2 ^ fmt.fracBits) with hm | hm
  · obtain rfl : e = 0 := by omega
    simpa using magnitude_of_lt hm
  · obtain ⟨f, rfl⟩ := Nat.exists_eq_add_of_le hm
    rcases Nat.lt_or_ge f (2 ^ fmt.fracBits) with hf | hf
    · have := magnitude_normal e hf
      rwa [Nat.succ_mul, Nat.add_assoc] at this
    · obtain rfl : f = 2 ^ fmt.fracBits := by omega
      have := magnitude_normal (fmt := fmt) (e + 1) (Nat.two_pow_pos fmt.fracBits)
      rw [show e * 2 ^ fmt.fracBits + (2 ^ fmt.fracBits + 2 ^ fmt.fracBits) = (e + 1 + 1) * 2 ^ fmt.fracBits + 0 by ring,
        this]
      ring

/-- Every pattern is of the form of `magnitude_scaled`, with room for one unit more. -/
theorem exists_scaled (fmt : FloatFormat) (x : Nat) :
    ∃ e m, x = e * 2 ^ fmt.fracBits + m ∧ (e = 0 ∨ 2 ^ fmt.fracBits ≤ m) ∧ m < 2 * 2 ^ fmt.fracBits := by
  have hmod := Nat.mod_lt x (Nat.two_pow_pos fmt.fracBits)
  have hx := Nat.div_add_mod' x (2 ^ fmt.fracBits)
  cases he : x / 2 ^ fmt.fracBits with
  | zero => exact ⟨0, x, by omega, .inl rfl, by rw [he] at hx; omega⟩
  | succ e =>
    refine ⟨e, 2 ^ fmt.fracBits + x % 2 ^ fmt.fracBits, ?_, .inr (by omega), by omega⟩
    rw [he, Nat.succ_mul] at hx
    omega

theorem magnitude_lt_succ (fmt : FloatFormat) (x : Nat) : fmt.magnitude x < fmt.magnitude (x + 1) := by
  obtain ⟨e, m, rfl, hlo, hhi⟩ := fmt.exists_scaled x
  rw [Nat.add_assoc, magnitude_scaled hlo hhi.le, magnitude_scaled (by omega) hhi]
  exact Nat.mul_lt_mul_of_pos_right (by omega) (Nat.two_pow_pos e)

theorem magnitude_strictMono (fmt : FloatFormat) : StrictMono fmt.magnitude :=
  strictMono_nat_of_lt_succ fmt.magnitude_lt_succ

theorem magnitude_eq_zero {x : Nat} : fmt.magnitude x = 0 ↔ x = 0 := by
  have hzero : fmt.magnitude 0 = 0 := magnitude_of_lt (Nat.two_pow_pos _)
  exact ⟨fun h => fmt.magnitude_strictMono.injective (h.trans hzero.symm), fun h => h ▸ hzero⟩

/-! ## The IEEE 754 values -/

/-- A power of two by the exponent field, `bias` below 1, in units of the least denormal. -/
theorem two_zpow_mul_two_zpow (c : ℤ) (k : Nat) : (2 : ℚ) ^ ((k + 1 : ℤ) - (c - 1)) * 2 ^ (c - 2) = 2 ^ k := by
  rw [← zpow_add₀ two_ne_zero, show (k + 1 : ℤ) - (c - 1) + (c - 2) = k by ring, zpow_natCast]

/-- The magnitudes count the IEEE 754 values in units of the least denormal. -/
theorem magnitude_eq_ieeeValue_mul_one (hfmt : fmt.Regular) (x : Nat) :
    (fmt.magnitude x : ℚ) = fmt.ieeeValue x * fmt.one := by
  have hF : (2 : ℚ) ^ fmt.fracBits ≠ 0 := by positivity
  have hbias : 2 ≤ 2 ^ (fmt.expBits - 1) := Nat.le_self_pow (by have := hfmt.two_le_expBits; omega) 2
  have hone : (fmt.one : ℚ) = 2 ^ ((2 : ℤ) ^ (fmt.expBits - 1) - 2) * 2 ^ fmt.fracBits := by
    rw [one, scale, Nat.pow_add, Nat.cast_mul, Nat.cast_pow, ← zpow_natCast, Nat.cast_sub hbias]
    push_cast
    rfl
  have hexp := two_zpow_mul_two_zpow (2 ^ (fmt.expBits - 1))
  rw [hone]
  unfold ieeeValue magnitude
  cases he : x / 2 ^ fmt.fracBits with
  | zero =>
    have hx : x % 2 ^ fmt.fracBits = x := Nat.mod_eq_of_lt (Nat.lt_of_div_eq_zero (Nat.two_pow_pos _) he)
    have hexp0 := hexp 0
    rw [Nat.cast_zero, zero_add, pow_zero] at hexp0
    simp only [hx, if_true]
    field_simp
    linear_combination (-(x : ℚ)) * hexp0
  | succ e =>
    simp only [Nat.succ_ne_zero, if_false]
    push_cast
    rw [← hexp e]
    generalize (2 : ℚ) ^ (_ : ℤ) = a
    field_simp

theorem ieeeValue_eq_div (hfmt : fmt.Regular) (x : Nat) : fmt.ieeeValue x = fmt.magnitude x / fmt.one :=
  eq_div_of_mul_eq fmt.one_cast_pos.ne' (magnitude_eq_ieeeValue_mul_one hfmt x).symm

theorem ieeeValue_strictMono (hfmt : fmt.Regular) : StrictMono fmt.ieeeValue := by
  intro x y hxy
  rw [ieeeValue_eq_div hfmt, ieeeValue_eq_div hfmt]
  exact div_lt_div_of_pos_right (by exact_mod_cast fmt.magnitude_strictMono hxy) fmt.one_cast_pos

/-! ## Rounding -/

/-- `c` is the nearer of the patterns `b` and `b + 1` to the number `num / den` between them; on their midpoint it is the
even one. -/
structure Brackets (fmt : FloatFormat) (num den b c : Nat) : Prop where
  lower : fmt.magnitude b * den ≤ num
  upper : num < fmt.magnitude (b + 1) * den
  nearer : c = b ∧ 2 * num ≤ (fmt.magnitude b + fmt.magnitude (b + 1)) * den ∨
    c = b + 1 ∧ (fmt.magnitude b + fmt.magnitude (b + 1)) * den ≤ 2 * num
  even : 2 * num = (fmt.magnitude b + fmt.magnitude (b + 1)) * den → c % 2 = 0

/-- The shift that `round` makes leaves at most the bits of the fraction and its leading bit, and exactly those where it
shifts at all. -/
theorem round_shift_bounds (fmt : FloatFormat) (n : Nat) :
    let sh := n.log2 - fmt.fracBits
    (sh = 0 ∨ 2 ^ fmt.fracBits ≤ n / 2 ^ sh) ∧ n / 2 ^ sh < 2 * 2 ^ fmt.fracBits := by
  intro sh
  constructor
  · rcases Nat.eq_zero_or_pos sh with h | h
    · exact .inl h
    · have hn : n ≠ 0 := by
        rintro rfl
        simp [sh] at h
      refine .inr ((Nat.le_div_iff_mul_le (Nat.two_pow_pos _)).2 ?_)
      rw [← Nat.pow_add, show fmt.fracBits + sh = n.log2 by omega]
      exact Nat.log2_self_le hn
  · rw [Nat.div_lt_iff_lt_mul (Nat.two_pow_pos _), ← Nat.pow_succ', ← Nat.pow_add]
    exact Nat.lt_log2_self.trans_le (Nat.pow_le_pow_right (by omega) (by omega))

/-- A number cut into `m` units of the last place and a rest `r` lies between the patterns of `m` and `m + 1` units, and the rest
says which is nearer. -/
theorem brackets_of_scaled (hfmt : fmt.Regular) {sh m r den : Nat} (hlo : sh = 0 ∨ 2 ^ fmt.fracBits ≤ m)
    (hhi : m < 2 * 2 ^ fmt.fracBits) (hr : r < den * 2 ^ sh) :
    fmt.Brackets (den * 2 ^ sh * m + r) den (sh * 2 ^ fmt.fracBits + m)
      (sh * 2 ^ fmt.fracBits + m + if den * 2 ^ sh < 2 * r then 1 else if 2 * r = den * 2 ^ sh then m % 2 else 0) := by
  have hb : fmt.magnitude (sh * 2 ^ fmt.fracBits + m) * den = den * 2 ^ sh * m := by
    rw [magnitude_scaled hlo hhi.le]
    ring
  have hb' : fmt.magnitude (sh * 2 ^ fmt.fracBits + m + 1) * den = den * 2 ^ sh * m + den * 2 ^ sh := by
    rw [Nat.add_assoc, magnitude_scaled (m := m + 1) (by omega) hhi]
    ring
  have heven : 2 ∣ sh * 2 ^ fmt.fracBits :=
    Dvd.dvd.mul_left (dvd_pow_self 2 (by have := hfmt.one_le_fracBits; omega)) _
  refine ⟨by omega, by omega, ?_, ?_⟩
  · rw [Nat.add_mul, hb, hb']
    split_ifs <;> omega
  · rw [Nat.add_mul, hb, hb']
    split_ifs <;> omega

/-- What `round` answers: the nearer of the two patterns that bracket its argument, or infinity where that is less. -/
theorem round_brackets (hfmt : fmt.Regular) (num : Nat) {den : Nat} (hden : 0 < den) :
    ∃ b c, fmt.Brackets num den b c ∧ fmt.round num den = min fmt.infBits c := by
  obtain ⟨hlo, hhi⟩ := fmt.round_shift_bounds (num / den)
  rw [Nat.div_div_eq_div_mul] at hlo hhi
  have hr := Nat.mod_lt num (Nat.mul_pos hden (Nat.two_pow_pos ((num / den).log2 - fmt.fracBits)))
  have h := brackets_of_scaled hfmt hlo hhi hr
  rw [Nat.div_add_mod] at h
  exact ⟨_, _, h, rfl⟩

/-- Of two neighbouring patterns around `q` the nearer one, or the even one on their midpoint, is the nearest of all; infinity
is nearest where it is less. -/
theorem nearest_of_bracket (hfmt : fmt.Regular) {b c : Nat} {q : ℚ} (lower : fmt.ieeeValue b ≤ q)
    (upper : q < fmt.ieeeValue (b + 1))
    (nearer : c = b ∧ 2 * q ≤ fmt.ieeeValue b + fmt.ieeeValue (b + 1) ∨
      c = b + 1 ∧ fmt.ieeeValue b + fmt.ieeeValue (b + 1) ≤ 2 * q)
    (even : 2 * q = fmt.ieeeValue b + fmt.ieeeValue (b + 1) → c % 2 = 0) :
    fmt.nearest 1 q (min fmt.infBits c) := by
  have hmono := ieeeValue_strictMono hfmt
  refine ⟨min_le_left _ _, fun d hd => ?_⟩
  simp only [pow_one]
  rcases Nat.lt_or_ge fmt.infBits c with hinf | hinf
  · -- infinity, whose value is at most that of `b`
    rw [min_eq_left hinf.le]
    have hinf_le : fmt.ieeeValue fmt.infBits ≤ fmt.ieeeValue b := hmono.monotone (by omega)
    rcases hd.lt_or_eq with hlt | rfl
    · have := hmono hlt
      exact ⟨fun _ => by linarith, fun h => by omega, fun _ h => by linarith⟩
    · exact ⟨fun h => by omega, fun h => by omega, fun h => absurd rfl h⟩
  · rw [min_eq_right hinf]
    rcases Nat.lt_or_ge b d with hbd | hbd
    · -- a pattern from `b + 1` on
      have hd' : fmt.ieeeValue (b + 1) ≤ fmt.ieeeValue d := hmono.monotone hbd
      rcases nearer with ⟨rfl, hq⟩ | ⟨rfl, hq⟩
      · exact ⟨fun h => by omega, fun _ => by linarith, fun _ h => even (by linarith)⟩
      · exact ⟨fun h => by omega, fun _ => by linarith, fun _ h => by linarith⟩
    · -- a pattern up to `b`
      have hd' : fmt.ieeeValue d ≤ fmt.ieeeValue b := hmono.monotone hbd
      rcases nearer with ⟨rfl, hq⟩ | ⟨rfl, hq⟩
      · refine ⟨fun _ => by linarith, fun h => by omega, fun hne h => ?_⟩
        have := hmono (hbd.lt_of_ne hne)
        linarith
      · exact ⟨fun _ => by linarith, fun h => by omega, fun _ h => even (by linarith)⟩

/-- `round` answers the pattern nearest to the number that `num / den` units are (44_convert_compare.md R300 items 2
and 3). -/
theorem nearest_round (hfmt : fmt.Regular) {num den : Nat} {q : ℚ} (hden : 0 < den)
    (hq : q * (fmt.one * den) = num) : fmt.nearest 1 q (fmt.round num den) := by
  obtain ⟨b, c, hbc, hround⟩ := round_brackets hfmt num hden
  have hunits : (0 : ℚ) < fmt.one * den := mul_pos fmt.one_cast_pos (by exact_mod_cast hden)
  have hvalue (x : Nat) : fmt.ieeeValue x * (fmt.one * den) = (fmt.magnitude x * den : Nat) := by
    rw [Nat.cast_mul, magnitude_eq_ieeeValue_mul_one hfmt, mul_assoc]
  have hmid : (fmt.ieeeValue b + fmt.ieeeValue (b + 1)) * (fmt.one * den) =
      ((fmt.magnitude b + fmt.magnitude (b + 1)) * den : Nat) := by
    rw [add_mul, hvalue, hvalue, Nat.add_mul, Nat.cast_add]
  have hq2 : 2 * q * (fmt.one * den) = (2 * num : Nat) := by
    rw [mul_assoc, hq]
    push_cast
    rfl
  rw [hround]
  refine nearest_of_bracket hfmt (b := b) ?_ ?_ (hbc.nearer.imp (.imp_right ?_) (.imp_right ?_)) (fun h => hbc.even ?_)
  · rw [← mul_le_mul_iff_left₀ hunits, hvalue, hq]
    exact_mod_cast hbc.lower
  · rw [← mul_lt_mul_iff_left₀ hunits, hvalue, hq]
    exact_mod_cast hbc.upper
  · rw [← mul_le_mul_iff_left₀ hunits, hmid, hq2]
    exact Nat.cast_le.2
  · rw [← mul_le_mul_iff_left₀ hunits, hmid, hq2]
    exact Nat.cast_le.2
  · rw [← mul_left_inj' hunits.ne', hmid, hq2] at h
    exact_mod_cast h

/-! ## Operations on finite values -/

theorem ieeeValue_nonneg (hfmt : fmt.Regular) (x : Nat) : 0 ≤ fmt.ieeeValue x := by
  rw [ieeeValue_eq_div hfmt]
  exact div_nonneg (Nat.cast_nonneg _) fmt.one_cast_pos.le

theorem abs_signedValue (hfmt : fmt.Regular) (a : Bool) (x : Nat) :
    |signedValue a (fmt.ieeeValue x)| = fmt.ieeeValue x := by
  have h := ieeeValue_nonneg hfmt x
  cases a <;> simp [signedValue, abs_of_nonneg h]

theorem signedValue_not (b : Bool) (q : ℚ) : signedValue (!b) q = -signedValue b q := by
  cases b <;> simp [signedValue]

theorem signedMag_eq (hfmt : fmt.Regular) (a : Bool) (x : Nat) :
    (signedMag a (fmt.magnitude x) : ℚ) = signedValue a (fmt.ieeeValue x) * fmt.one := by
  cases a <;> simp [signedMag, signedValue, magnitude_eq_ieeeValue_mul_one hfmt]

/-- A finite sum is exact before its one rounding, and has the sign of the exact sum. -/
theorem sum_rounds (hfmt : fmt.Regular) (a b : Bool) (x y : Nat) :
    let q := signedValue a (fmt.ieeeValue x) + signedValue b (fmt.ieeeValue y)
    ∃ m, fmt.sum (.fin a (fmt.magnitude x)) (.fin b (fmt.magnitude y)) =
        some (fmt.pack (if q = 0 then a && b else decide (q < 0)) m) ∧ fmt.nearest 1 |q| m := by
  intro q
  have hv : ((signedMag a (fmt.magnitude x) + signedMag b (fmt.magnitude y) : Int) : ℚ) = q * fmt.one := by
    rw [Int.cast_add, signedMag_eq hfmt, signedMag_eq hfmt, add_mul]
  generalize hs : signedMag a (fmt.magnitude x) + signedMag b (fmt.magnitude y) = v at hv
  have hzero : v = 0 ↔ q = 0 := by
    rw [← Int.cast_eq_zero (α := ℚ), hv, mul_eq_zero_iff_right fmt.one_cast_pos.ne']
  have hneg : v < 0 ↔ q < 0 := by
    rw [← Int.cast_lt_zero (R := ℚ), hv]
    exact ⟨fun h => neg_of_mul_neg_left h fmt.one_cast_pos.le, fun h => mul_neg_of_neg_of_pos h fmt.one_cast_pos⟩
  refine ⟨fmt.round v.natAbs 1, ?_, nearest_round hfmt one_pos ?_⟩
  · simp only [sum, hs, hzero, hneg]
  · rw [Nat.cast_natAbs, Int.cast_abs, hv, abs_mul, abs_of_pos fmt.one_cast_pos, Nat.cast_one, mul_one]

/-- A finite product is exact before its one rounding. -/
theorem product_rounds (hfmt : fmt.Regular) (a b : Bool) (x y : Nat) :
    ∃ m, fmt.product (.fin a (fmt.magnitude x)) (.fin b (fmt.magnitude y)) = some (fmt.pack (a ^^ b) m) ∧
      fmt.nearest 1 |signedValue a (fmt.ieeeValue x) * signedValue b (fmt.ieeeValue y)| m := by
  refine ⟨_, rfl, nearest_round hfmt (Nat.two_pow_pos _) ?_⟩
  rw [abs_mul, abs_signedValue hfmt, abs_signedValue hfmt, Nat.cast_mul, magnitude_eq_ieeeValue_mul_one hfmt,
    magnitude_eq_ieeeValue_mul_one hfmt, mul_mul_mul_comm]

/-- A quotient by a number that is not 0 is exact before its one rounding. -/
theorem quotient_rounds (hfmt : fmt.Regular) (a b : Bool) (x : Nat) {y : Nat} (hy : y ≠ 0) :
    ∃ m, fmt.quotient (.fin a (fmt.magnitude x)) (.fin b (fmt.magnitude y)) = some (fmt.pack (a ^^ b) m) ∧
      fmt.nearest 1 |signedValue a (fmt.ieeeValue x) / signedValue b (fmt.ieeeValue y)| m := by
  have hmag : fmt.magnitude y ≠ 0 := mt magnitude_eq_zero.1 hy
  have hvalue : fmt.ieeeValue y ≠ 0 := by
    rw [ieeeValue_eq_div hfmt]
    exact div_ne_zero (Nat.cast_ne_zero.2 hmag) fmt.one_cast_pos.ne'
  refine ⟨_, if_neg hmag, nearest_round hfmt (Nat.pos_of_ne_zero hmag) ?_⟩
  rw [abs_div, abs_signedValue hfmt, abs_signedValue hfmt, Nat.cast_mul, magnitude_eq_ieeeValue_mul_one hfmt,
    magnitude_eq_ieeeValue_mul_one hfmt]
  field_simp

/-- An integer is exact before its one rounding. -/
theorem ofInt_rounds (hfmt : fmt.Regular) (i : Int) :
    ∃ m, fmt.ofInt i = fmt.pack (decide (i < 0)) m ∧ fmt.nearest 1 |(i : ℚ)| m := by
  refine ⟨_, rfl, nearest_round hfmt one_pos ?_⟩
  rw [Nat.cast_mul, Nat.cast_natAbs, Int.cast_abs, Nat.cast_one, mul_one]

/-- A value of another format is exact before its one rounding. -/
theorem convert_rounds {src : FloatFormat} (hfmt : fmt.Regular) (hsrc : src.Regular) (neg : Bool) {x : Nat}
    (hx : x < src.infBits) :
    ∃ m, fmt.convert src (src.pack neg x) = some (fmt.pack neg m) ∧ fmt.nearest 1 (src.ieeeValue x) m := by
  refine ⟨fmt.round (src.magnitude x * fmt.one) src.one, ?_, nearest_round hfmt (Nat.two_pow_pos _) ?_⟩
  · rw [convert, unpack_pack neg hx]
  · rw [Nat.cast_mul, magnitude_eq_ieeeValue_mul_one hsrc]
    ring

end FloatFormat

/-- Settles O22: each operation hands `round` its exact result (log 13 for the signs of zeros). -/
theorem floatOperationsRoundTheExactResult : Obligations.FloatOperationsRoundTheExactResult := by
  intro fmt hstd
  have hfmt := FloatFormat.regular_of_standard hstd
  refine ⟨fun neg x hx => ⟨FloatFormat.unpack_pack neg hx, FloatFormat.magnitude_eq_ieeeValue_mul_one hfmt x⟩, ?_,
    FloatFormat.ofInt_rounds hfmt,
    fun src hsrc neg x hx => FloatFormat.convert_rounds hfmt (FloatFormat.regular_of_standard hsrc) neg hx⟩
  intro a b x y hx hy
  simp only [FloatFormat.add, FloatFormat.sub, FloatFormat.mul, FloatFormat.div, FloatFormat.unpack_pack a hx,
    FloatFormat.unpack_pack b hy]
  refine ⟨FloatFormat.sum_rounds hfmt a b x y, ?_, FloatFormat.product_rounds hfmt a b x y,
    FloatFormat.quotient_rounds hfmt a b x⟩
  have hsub := FloatFormat.sum_rounds hfmt a (!b) x y
  rwa [FloatFormat.signedValue_not, ← sub_eq_add_neg] at hsub

end Sys2Proof.Machine
end

section
/-! PROOFS. The frames of whole instructions (10_state.md R24, R26, R28 to R31): which mnemonics can write flags, memory
and the float and double registers, and where the pc goes. Flags, memory and the two register files are spoken of
together, so that the operations an instruction is made of are gone through once; the pc needs no such pass, because an
instruction that does not transfer control ends in `complete`. -/

namespace Sys2Proof.Machine

/-! ## Reset -/

/-- Settles O12: the default parameters are legal, memory is empty and flags are 0 (logs 6 and 7). -/
theorem resetHasTheInvariant : Obligations.ResetHasTheInvariant where
  params_wf := by decide +kernel
  mem_wf := ⟨.nil, nofun⟩
  mem_below := nofun
  flags_high := rfl

/-! ## The pc -/

/-- An instruction that does not transfer control ends in `complete`, by its own length; one that raises a fault on
every path does so too. -/
theorem exec_eq_complete {i : Instr} (hi : i.mnemonic ∉ transfers) (s : State) :
    ∃ r, exec i s = complete s i.length r := by
  cases i with
  | jump | jumpf | jumpb | call | callf | callb | ret | leave | leaveres =>
    exact absurd (of_decide_eq_true rfl) hi
  | addcl | subcl => exact ⟨.error (.notAvailable s.pc), rfl⟩
  | halt | nop | sliw | slil | srliw | srlil | sraiw | srail | rliw | rlil | rriw | rril => exact ⟨.ok _, rfl⟩
  | _ => exact ⟨_, rfl⟩

/-- Settles O15: `complete` moves the pc by the length of the instruction, or takes a fault. -/
theorem onlyTransfersMoveThePc : Obligations.OnlyTransfersMoveThePc := by
  intro i s t hi ht hstatus
  obtain ⟨r, hr⟩ := exec_eq_complete hi s
  rcases complete_eq_next.1 (hr ▸ ht) with ⟨u, -, rfl⟩ | ⟨x, -, rfl⟩
  · rfl
  · exact absurd rfl (hstatus x)

/-! ## What an instruction with a given mnemonic may have written -/

/-- From `s` to `t` flags, memory and the float and double registers have changed only where the mnemonic `m` is
one of their writers. -/
structure WriterFrame (m : Mnemonic) (s t : State) : Prop where
  flags : m ∉ flagWriters → t.flags = s.flags
  mem : m ∉ memoryWriters → t.mem = s.mem
  float : m ∉ floatWriters → t.f = s.f
  double : m ∉ doubleWriters → t.d = s.d

theorem WriterFrame.refl (m : Mnemonic) (s : State) : WriterFrame m s s :=
  ⟨fun _ => rfl, fun _ => rfl, fun _ => rfl, fun _ => rfl⟩

section
variable {m : Mnemonic} {s t : State}

/-- An update of other fields than the four. -/
theorem WriterFrame.of_eq {u : State} (h : WriterFrame m s t) (hflags : u.flags = t.flags) (hmem : u.mem = t.mem)
    (hfloat : u.f = t.f) (hdouble : u.d = t.d) : WriterFrame m s u where
  flags hm := hflags.trans (h.flags hm)
  mem hm := hmem.trans (h.mem hm)
  float hm := hfloat.trans (h.float hm)
  double hm := hdouble.trans (h.double hm)

theorem WriterFrame.setW (h : WriterFrame m s t) (k : Reg) (v : Word) : WriterFrame m s (t.setW k v) :=
  h.of_eq rfl rfl rfl rfl
theorem WriterFrame.setL (h : WriterFrame m s t) (k : Reg) (v : Long) : WriterFrame m s (t.setL k v) :=
  h.of_eq rfl rfl rfl rfl
theorem WriterFrame.setPc (h : WriterFrame m s t) (v : Long) : WriterFrame m s (t.setPc v) := h.of_eq rfl rfl rfl rfl
theorem WriterFrame.setStatus (h : WriterFrame m s t) (v : Status) : WriterFrame m s (t.setStatus v) :=
  h.of_eq rfl rfl rfl rfl
theorem WriterFrame.raise (h : WriterFrame m s t) (x : Fault) : WriterFrame m s (t.raise x) := h.setStatus _
theorem WriterFrame.drop (h : WriterFrame m s t) (n : Nat) : WriterFrame m s (t.drop n) := h.setL _ _

theorem WriterFrame.setFlags (h : WriterFrame m s t) (hm : m ∈ flagWriters) (v : Word) :
    WriterFrame m s (t.setFlags v) :=
  ⟨absurd hm, h.mem, h.float, h.double⟩

theorem WriterFrame.setMem (h : WriterFrame m s t) (hm : m ∈ memoryWriters) (v : Memory) :
    WriterFrame m s (t.setMem v) :=
  ⟨h.flags, absurd hm, h.float, h.double⟩

theorem WriterFrame.setF (h : WriterFrame m s t) (hm : m ∈ floatWriters) (k : Reg) (v : Long) :
    WriterFrame m s (t.setF k v) :=
  ⟨h.flags, h.mem, absurd hm, h.double⟩

theorem WriterFrame.setD (h : WriterFrame m s t) (hm : m ∈ doubleWriters) (k : Reg) (v : Quad) :
    WriterFrame m s (t.setD k v) :=
  ⟨h.flags, h.mem, h.float, absurd hm⟩

theorem WriterFrame.putF (h : WriterFrame m s t) (hm : m ∈ floatWriters) (k : Reg) (v : Option Nat) :
    WriterFrame m s (t.putF k v) := by
  obtain ⟨x, c, e⟩ := t.putF_frame k v
  exact e ▸ (h.setF hm k x).of_eq rfl rfl rfl rfl

theorem WriterFrame.putD (h : WriterFrame m s t) (hm : m ∈ doubleWriters) (k : Reg) (v : Option Nat) :
    WriterFrame m s (t.putD k v) := by
  obtain ⟨x, c, e⟩ := t.putD_frame k v
  exact e ▸ (h.setD hm k x).of_eq rfl rfl rfl rfl

theorem WriterFrame.putTrunc (h : WriterFrame m s t) (k : Reg) (lo hi : Int) (v : Option Int) :
    WriterFrame m s (t.putTrunc k lo hi v) := by
  obtain ⟨x, c, e⟩ := t.putTrunc_frame k lo hi v
  exact e ▸ h.of_eq rfl rfl rfl rfl

theorem WriterFrame.setOrdering (h : WriterFrame m s t) (hm : m ∈ flagWriters) (o : Option Ordering) :
    WriterFrame m s (t.setOrdering o) := by
  obtain ⟨x, c, -, e⟩ := t.setOrdering_frame o
  exact e ▸ (h.setFlags hm x).of_eq rfl rfl rfl rfl

theorem WriterFrame.remainderW (h : WriterFrame m s t) (q : QOp 16) (v : Word) :
    WriterFrame m s (t.remainderW q v) := by
  unfold State.remainderW
  split
  · exact h.setW _ _
  · exact h

theorem WriterFrame.remainderL (h : WriterFrame m s t) (q : QOp 32) (v : Long) :
    WriterFrame m s (t.remainderL q v) := by
  unfold State.remainderL
  split
  · exact h.setL _ _
  · exact h

/-- The file of a general register may be any of the four, so its writers write both floating files (10_state.md R25). -/
theorem WriterFrame.setG (h : WriterFrame m s t) (hf : m ∈ floatWriters) (hd : m ∈ doubleWriters) (g : GReg)
    (v : Nat) : WriterFrame m s (t.setG g v) := by
  unfold State.setG
  split
  · exact h.setW _ _
  · exact h.setL _ _
  · exact h.setF hf _ _
  · exact h.setD hd _ _

end

/-! ## Results and outcomes -/

/-- The state an operation answers, where it raises no fault, has the property. -/
def EndsIn (P : State → Prop) (r : Result) : Prop := ∀ t, r = .ok t → P t

section
variable {P : State → Prop}

theorem EndsIn.ok {t : State} (h : P t) : EndsIn P (.ok t) := by
  rintro _ ⟨⟩
  exact h

theorem EndsIn.error (x : Fault) : EndsIn P (.error x) := nofun

/-- A sequence ends as its last operation does. -/
theorem EndsIn.bind {α : Type} {x : Except Fault α} {f : α → Result} (hf : ∀ a, x = .ok a → EndsIn P (f a)) :
    EndsIn P (x >>= f) := by
  intro t ht
  obtain ⟨a, hx, hfa⟩ := bind_eq_ok.1 ht
  exact hf a hx t hfa

/-- A sequence that ends in an update of the state. -/
theorem EndsIn.value {α : Type} {x : Except Fault α} {f : α → State} (hf : ∀ a, x = .ok a → P (f a)) :
    EndsIn P (do let a ← x; return f a) :=
  .bind fun a hx => .ok (hf a hx)

end

section
variable {m : Mnemonic} {s t : State} {r : Result}

/-- A fault is taken on the state the instruction started in, so a frame of the result is one of the instruction (R401). -/
theorem EndsIn.finish (hr : EndsIn (WriterFrame m s) r) (ht : finish s r = .next t) : WriterFrame m s t := by
  rcases finish_eq_next.1 ht with e | ⟨x, -, rfl⟩
  · exact hr t e
  · exact (WriterFrame.refl m s).raise x

theorem EndsIn.complete {n : Nat} (hr : EndsIn (WriterFrame m s) r) (ht : complete s n r = .next t) :
    WriterFrame m s t := by
  rcases complete_eq_next.1 ht with ⟨u, e, rfl⟩ | ⟨x, -, rfl⟩
  · exact (hr u e).setPc _
  · exact (WriterFrame.refl m s).raise x

end

/-! ## Operations over memory, the stack and operands -/

section
variable {m : Mnemonic} {s t : State}

theorem WriterFrame.memWrite (h : WriterFrame m s t) (hm : m ∈ memoryWriters) (a : Long) (n v : Nat) :
    EndsIn (WriterFrame m s) (t.memWrite a n v) := by
  intro u hu
  obtain ⟨-, rfl⟩ := State.memWrite_eq_ok.1 hu
  exact h.setMem hm _

theorem WriterFrame.push (h : WriterFrame m s t) (hm : m ∈ memoryWriters) (n v : Nat) :
    EndsIn (WriterFrame m s) (t.push n v) :=
  .value fun u hu => (h.memWrite hm _ _ _ u hu).setL _ _

theorem WriterFrame.popReg (h : WriterFrame m s t) (hf : m ∈ floatWriters) (hd : m ∈ doubleWriters) (g : GReg) :
    EndsIn (WriterFrame m s) (t.popReg g) :=
  .value fun _ _ => (h.setG hf hd _ _).drop _

theorem WriterFrame.pushEach (hm : m ∈ memoryWriters) (bmsk : Long) (ns : List Nat) :
    ∀ {t : State}, WriterFrame m s t → EndsIn (WriterFrame m s) (pushEach bmsk ns t) := by
  induction ns with
  | nil => exact .ok
  | cons n ns ih =>
    intro t h
    cases hn : bmsk.getLsbD n with
    | false =>
      rw [pushEach_off hn]
      exact ih h
    | true =>
      intro v hv
      obtain ⟨u, hu, hv⟩ := (pushEach_on hn).1 hv
      exact ih (h.push hm _ _ u hu) v hv

theorem WriterFrame.popEach (hf : m ∈ floatWriters) (hd : m ∈ doubleWriters) (bmsk : Long) (ns : List Nat) :
    ∀ {t : State}, WriterFrame m s t → EndsIn (WriterFrame m s) (popEach bmsk ns t) := by
  induction ns with
  | nil => exact .ok
  | cons n ns ih =>
    intro t h
    cases hn : bmsk.getLsbD n with
    | false =>
      rw [popEach_off hn]
      exact ih h
    | true =>
      intro v hv
      obtain ⟨u, hu, hv⟩ := (popEach_on hn).1 hv
      exact ih (h.popReg hf hd _ u hu) v hv

theorem WriterFrame.pushMask (h : WriterFrame m s t) (hm : m ∈ memoryWriters) (bmsk : Long) :
    EndsIn (WriterFrame m s) (t.pushMask bmsk) :=
  pushEach hm _ _ h

theorem WriterFrame.popMask (h : WriterFrame m s t) (hf : m ∈ floatWriters) (hd : m ∈ doubleWriters) (bmsk : Long) :
    EndsIn (WriterFrame m s) (t.popMask bmsk) :=
  popEach hf hd _ _ h

theorem WriterFrame.enterFrame (h : WriterFrame m s t) (hm : m ∈ memoryWriters) (stkc : Byte) :
    EndsIn (WriterFrame m s) (t.enterFrame stkc) :=
  .value fun u hu => ((h.memWrite hm _ _ _ u hu).setL _ _).setL _ _

theorem WriterFrame.returnFrame (h : WriterFrame m s t) (stkc : Byte) :
    EndsIn (WriterFrame m s) (t.returnFrame stkc) :=
  .value fun _ _ => (h.setL _ _).setPc _

theorem WriterFrame.leaveFrame (h : WriterFrame m s t) (stkc : Byte) :
    EndsIn (WriterFrame m s) (t.leaveFrame stkc) :=
  .bind fun _ _ => .value fun _ _ => ((h.setL _ _).setL _ _).setPc _

theorem WriterFrame.callTo (h : WriterFrame m s t) (hm : m ∈ memoryWriters) (npc target : Long) :
    EndsIn (WriterFrame m s) (t.callTo npc target) :=
  .value fun u hu => (h.push hm _ _ u hu).setPc _

/-- A store to a q-operand is a store to its register or to memory (30_encoding.md R103). -/
theorem WriterFrame.store (h : WriterFrame m s t) (hm : m ∈ memoryWriters) {n : Nat} {setReg : Reg → BitVec n → State}
    (hreg : ∀ k v, WriterFrame m s (setReg k v)) (v : BitVec n) (k : QKind n) :
    EndsIn (WriterFrame m s) (k.store setReg v t) := by
  cases k with
  | reg k => exact .ok (hreg k v)
  | imm u => exact .error _
  | mem a => exact h.memWrite hm _ _ _

theorem WriterFrame.groupWrite (h : WriterFrame m s t) (hf : m ∈ floatWriters) (hd : m ∈ doubleWriters) (g : GReg)
    (n : SizeCode) (v : Nat) : EndsIn (WriterFrame m s) (g.groupWrite n v t) := by
  intro u hu
  obtain ⟨hmem, -, hflags, -⟩ := GReg.groupWrite_frame g n v t u hu
  exact ⟨fun hm => hflags.trans (h.flags hm), fun hm => hmem.trans (h.mem hm), absurd hf, absurd hd⟩

/-- A store to an m-operand is one to memory or to a group of registers (40_data_movement.md R157). -/
theorem WriterFrame.writeM (h : WriterFrame m s t) (hm : m ∈ memoryWriters) (hf : m ∈ floatWriters)
    (hd : m ∈ doubleWriters) (o : MOp) (n : SizeCode) (v : Nat) : EndsIn (WriterFrame m s) (o.write n v t) := by
  cases o with
  | mmema a => exact h.memWrite hm _ _ _
  | mreg g => exact h.groupWrite hf hd _ _ _
  | x xm => exact h.memWrite hm _ _ _

end

/-! ## Every instruction -/

/-- leal writes a long register, whatever its operand is (40_data_movement.md R158). -/
theorem execLeal_frame {m : Mnemonic} {q : QOp 32} {r : Reg} {s t : State} (ht : execLeal q r s = .next t) :
    WriterFrame m s t := by
  refine EndsIn.complete ?_ ht
  cases q.kind longImms s <;> exact .ok ((WriterFrame.refl m s).setL _ _)

/-- jump sets the pc alone, its condition holding or not (45_control_stack_misc.md R342). -/
theorem execJump_frame {m : Mnemonic} {c : Cond} {j : JOp} {s t : State} (ht : execJump c j s = .next t) :
    WriterFrame m s t := by
  have h := WriterFrame.refl m s
  refine EndsIn.finish ?_ ht
  split
  · exact .value fun _ _ => h.setPc _
  · exact .ok (h.setPc _)

/-- call pushes and sets the pc, or sets the pc alone (45_control_stack_misc.md R345). -/
theorem execCall_frame {m : Mnemonic} (hm : m ∈ memoryWriters) {c : Cond} {j : JOp} {s t : State}
    (ht : execCall c j s = .next t) : WriterFrame m s t := by
  have h := WriterFrame.refl m s
  refine EndsIn.finish ?_ ht
  split
  · exact .bind fun _ _ => h.callTo hm _ _
  · exact .ok (h.setPc _)

/-- Every instruction writes flags, memory and the float and double registers only where its mnemonic is in the list of
their writers. The arms are grouped by what the instruction writes. -/
theorem exec_frame {i : Instr} {s t : State} (ht : exec i s = .next t) : WriterFrame i.mnemonic s t := by
  have h := WriterFrame.refl i.mnemonic s
  cases i with
  -- a word register, from one operand or by a count in the instruction
  | addw | subw | negw | muluw | mulsw | absw | andw | orw | xorw | notw | movw | movbw | cvtbzw | cvtbsw
  | slw | srlw | sraw | rlw | rrw =>
    exact EndsIn.complete (.value fun _ _ => h.setW _ _) ht
  | sliw | srliw | sraiw | rliw | rriw => exact EndsIn.complete (.ok (h.setW _ _)) ht
  -- a long register
  | addl | adduwl | addswl | subl | subuwl | subswl | negl | mulul | mulsl | muluwl | mulswl | absl | andl | orl
  | xorl | notl | movl | movbl | movwl | cvtbzl | cvtbsl | cvtwzl | cvtwsl | sll | srll | sral | rll | rrl =>
    exact EndsIn.complete (.value fun _ _ => h.setL _ _) ht
  | slil | srlil | srail | rlil | rril => exact EndsIn.complete (.ok (h.setL _ _)) ht
  | cvttful | cvttfsl | cvttdul | cvttdsl => exact EndsIn.complete (.value fun _ _ => h.putTrunc _ _ _ _) ht
  | leal => exact execLeal_frame ht
  -- a float or double register
  | movf | negf | absf | cvtulf | cvtslf =>
    exact EndsIn.complete (.value fun _ _ => h.setF (of_decide_eq_true rfl) _ _) ht
  | movd | negd | absd | cvtuld | cvtsld =>
    exact EndsIn.complete (.value fun _ _ => h.setD (of_decide_eq_true rfl) _ _) ht
  | addf | subf | mulf | divf | sqrtf | cvtdf =>
    exact EndsIn.complete (.value fun _ _ => h.putF (of_decide_eq_true rfl) _ _) ht
  | addd | subd | muld | divd | sqrtd | cvtfd =>
    exact EndsIn.complete (.value fun _ _ => h.putD (of_decide_eq_true rfl) _ _) ht
  -- quotients and remainders, after the tests of the divisor
  | divuw | remuw | remsw => exact EndsIn.complete (.bind fun _ _ => .value fun _ _ => h.setW _ _) ht
  | divsw => exact EndsIn.complete (.bind fun _ _ => .bind fun _ _ => .value fun _ _ => h.setW _ _) ht
  | divul | remul | remsl => exact EndsIn.complete (.bind fun _ _ => .value fun _ _ => h.setL _ _) ht
  | divsl => exact EndsIn.complete (.bind fun _ _ => .bind fun _ _ => .value fun _ _ => h.setL _ _) ht
  | divruw => exact EndsIn.complete (.bind fun _ _ => .value fun _ _ => (h.setW _ _).remainderW _ _) ht
  | divrul => exact EndsIn.complete (.bind fun _ _ => .value fun _ _ => (h.setL _ _).remainderL _ _) ht
  | divrulw => exact EndsIn.complete (.bind fun _ _ => .value fun _ _ => (h.setL _ _).remainderW _ _) ht
  | divrsw =>
    exact EndsIn.complete (.bind fun _ _ => .bind fun _ _ => .value fun _ _ => (h.setW _ _).remainderW _ _) ht
  | divrsl =>
    exact EndsIn.complete (.bind fun _ _ => .bind fun _ _ => .value fun _ _ => (h.setL _ _).remainderL _ _) ht
  | divrslw =>
    exact EndsIn.complete (.bind fun _ _ => .bind fun _ _ => .value fun _ _ => (h.setL _ _).remainderW _ _) ht
  -- flags
  | cmpw | cmpl | cmpwb | cmplb | movflags =>
    exact EndsIn.complete (.value fun _ _ => h.setFlags (of_decide_eq_true rfl) _) ht
  | cmpf | cmpd => exact EndsIn.complete (.value fun _ _ => h.setOrdering (of_decide_eq_true rfl) _) ht
  -- stores to an operand
  | stow | stowb | stolw | stoflags | set0w | set1w =>
    exact EndsIn.complete (h.store (of_decide_eq_true rfl) (fun _ _ => h.setW _ _) _ _) ht
  | stol | stolb | set0l | set1l =>
    exact EndsIn.complete (h.store (of_decide_eq_true rfl) (fun _ _ => h.setL _ _) _ _) ht
  | stof => exact EndsIn.complete (h.store (of_decide_eq_true rfl) (h.setF (of_decide_eq_true rfl)) _ _) ht
  | stod => exact EndsIn.complete (h.store (of_decide_eq_true rfl) (h.setD (of_decide_eq_true rfl)) _ _) ht
  -- registers of any file
  | gmov =>
    exact EndsIn.complete
      (.bind fun _ _ => h.groupWrite (of_decide_eq_true rfl) (of_decide_eq_true rfl) _ _ _) ht
  | gsto =>
    exact EndsIn.complete
      (.bind fun _ _ => h.writeM (of_decide_eq_true rfl) (of_decide_eq_true rfl) (of_decide_eq_true rfl) _ _ _) ht
  | popregs bmsk => exact EndsIn.complete (h.popMask (of_decide_eq_true rfl) (of_decide_eq_true rfl) bmsk) ht
  | leaveres stkc bmsk =>
    exact EndsIn.finish
      (.bind fun u hu => (h.popMask (of_decide_eq_true rfl) (of_decide_eq_true rfl) bmsk u hu).leaveFrame stkc) ht
  -- the stack
  | pushw | pushl | pushf | pushd =>
    exact EndsIn.complete (.bind fun _ _ => h.push (of_decide_eq_true rfl) _ _) ht
  | popw =>
    exact EndsIn.complete
      (.bind fun _ _ => .value fun u hu => (h.store (of_decide_eq_true rfl) h.setW _ _ u hu).drop _) ht
  | popl =>
    exact EndsIn.complete
      (.bind fun _ _ => .value fun u hu => (h.store (of_decide_eq_true rfl) h.setL _ _ u hu).drop _) ht
  | popf =>
    exact EndsIn.complete
      (.bind fun _ _ => .value fun u hu =>
        (h.store (of_decide_eq_true rfl) (h.setF (of_decide_eq_true rfl)) _ _ u hu).drop _) ht
  | popd =>
    exact EndsIn.complete
      (.bind fun _ _ => .value fun u hu =>
        (h.store (of_decide_eq_true rfl) (h.setD (of_decide_eq_true rfl)) _ _ u hu).drop _) ht
  | pushregs bmsk => exact EndsIn.complete (h.pushMask (of_decide_eq_true rfl) bmsk) ht
  | enter stkc => exact EndsIn.complete (h.enterFrame (of_decide_eq_true rfl) stkc) ht
  | entersav stkc bmsk =>
    exact EndsIn.complete
      (.bind fun u hu => (h.enterFrame (of_decide_eq_true rfl) stkc u hu).pushMask (of_decide_eq_true rfl) bmsk) ht
  -- transfers of control
  | jump => exact execJump_frame ht
  | jumpf | jumpb => exact EndsIn.finish (.ok (h.setPc _)) ht
  | call => exact execCall_frame (of_decide_eq_true rfl) ht
  | callf | callb => exact EndsIn.finish (h.callTo (of_decide_eq_true rfl) _ _) ht
  | ret stkc => exact EndsIn.finish (h.returnFrame stkc) ht
  | leave stkc => exact EndsIn.finish (h.leaveFrame stkc) ht
  -- none of the four
  | addcl | subcl => exact EndsIn.finish (.error _) ht
  | halt => exact EndsIn.complete (.ok (h.setStatus _)) ht
  | nop => exact EndsIn.complete (.ok h) ht

/-- Settles O14: the flags of `exec_frame`. -/
theorem onlyComparesAndMovflagsWriteFlags : Obligations.OnlyComparesAndMovflagsWriteFlags :=
  fun _ _ _ hi ht => (exec_frame ht).flags hi

/-- Settles O16: the memory and the float and double registers of `exec_frame`. -/
theorem onlyTheirWritersTouchMemoryAndFloatRegisters : Obligations.OnlyTheirWritersTouchMemoryAndFloatRegisters :=
  fun _ _ _ ht => ⟨(exec_frame ht).mem, (exec_frame ht).float, (exec_frame ht).double⟩

end Sys2Proof.Machine
end

section
/-! PROOFS. Reads and writes of memory (20_memory.md R52, R53) and the step of the running machine (R67). A read gives the
number of its bytes, so a byte of that number is a byte of memory; a step is the effect of what the fetched bytes decode
to. -/

namespace Sys2Proof.Machine

/-! ## Memory -/

/-- Digit `k` in base 256 of the number read is byte `k`: the converse of `Memory.read_writeLE_self`. -/
theorem Memory.readLE_digit (m : Memory) (a : Nat) {n k : Nat} (h : k < n) :
    BitVec.ofNat 8 (m.readLE a n / 256 ^ k) = m.read (a + k) := by
  induction n generalizing a k with
  | zero => omega
  | succ n ih =>
    cases k with
    | zero =>
      apply BitVec.eq_of_toNat_eq
      simpa [Memory.readLE] using (m.read a).isLt
    | succ k =>
      have hlow := (m.read a).isLt
      have hhigh : ((m.read a).toNat + 256 * m.readLE (a + 1) n) / 256 = m.readLE (a + 1) n := by omega
      rw [Memory.readLE, Nat.pow_succ', ← Nat.div_div_eq_div_mul, hhigh, ih (a + 1) (by omega)]
      congr 1
      omega

/-- A write that fits stores its bytes and no other (20_memory.md R53). -/
theorem State.storedAt_setMem_writeLE {s : State} (w : s.mem.wf) (a : Long) (n v : Nat) :
    storedAt s (s.setMem (s.mem.writeLE a.toNat n v)) a n v :=
  ⟨fun k hk => Memory.read_writeLE_self s.mem a.toNat n v k w hk,
    fun b hb => Memory.read_writeLE_other s.mem a.toNat n v b hb⟩

/-- Settles O17: memory answers byte by byte what was stored, and the two bounds are those of `memRead_eq_error` and
`memWrite_eq_error`. -/
theorem memReadAndMemWrite : Obligations.MemReadAndMemWrite := by
  intro s a n v
  refine ⟨fun hfit => ?read, fun hwf hfit => ?write, fun hpast => ?bounds⟩
  case read =>
    exact ⟨_, State.memRead_eq_ok.2 ⟨hfit, rfl⟩, s.mem.readLE_lt _ _, fun k hk => s.mem.readLE_digit _ hk⟩
  case write =>
    have hback := (s.mem.readLE_writeLE_self a.toNat n v hwf).symm
    exact ⟨_, State.memWrite_eq_ok.2 ⟨hfit, rfl⟩, State.storedAt_setMem_writeLE hwf a n v,
      State.memRead_eq_ok.2 ⟨hfit, hback⟩, rfl⟩
  case bounds => exact ⟨State.memRead_eq_error.2 ⟨hpast, rfl⟩, State.memWrite_eq_error.2 ⟨hpast, rfl⟩⟩

/-! ## The step -/

/-- Where the pc is even and the bytes there decode, the fetch answers the instruction. -/
theorem State.fetch_of_decode {s : State} {i : Instr} (heven : s.pc.toNat % 2 = 0)
    (hdecode : decode s.params s.fetchBytes = .ok i) : s.fetch = .ok i := by
  simp [State.fetch, heven, hdecode]

/-- A step of the running machine is the effect of the instruction fetched. -/
theorem step_of_fetch {s : State} {i : Instr} (hrunning : s.status = .running) (hfetch : s.fetch = .ok i) :
    step s = exec i s := by
  simp [step, hrunning, hfetch]

/-- Settles O5. -/
theorem stepRunsTheDecodedInstruction : Obligations.StepRunsTheDecodedInstruction :=
  fun _ _ hrunning heven _ hdecode => step_of_fetch hrunning (State.fetch_of_decode heven hdecode)

end Sys2Proof.Machine
end

section
/-! PROOFS. Decoding what the encoder writes (30_encoding.md R83), and the step at an encoding (20_memory.md R67). A field is
read back from where it was written; with that each operand decodes from its bytes, each format from its operand, and
every instruction is of one of the formats. The fetched bytes begin with the encoding, so the step is that instruction's. -/

namespace Sys2Proof

/-! ## Fields -/

/-- A little-endian sequence stands for the number it was written from, as far as its bytes hold it. -/
theorem leNat_leBytes (n v : Nat) : leNat (leBytes n v) = v % 256 ^ n := by
  induction n generalizing v with
  | zero => simp [leBytes, leNat, Nat.mod_one]
  | succ n ih =>
    rw [leBytes, leNat, ih, BitVec.toNat_ofNat, pow_succ' 256 n, Nat.mod_mul, show 2 ^ 8 = 256 from rfl]

/-- The error of the same field where one more byte stands before it. -/
def DecodeError.behindByte : DecodeError → DecodeError
  | .truncated off => .truncated (off + 1)
  | e => e

/-- A field past the first byte is a field of the bytes after it. -/
@[simp] theorem field_succ (n off : Nat) (b : Byte) (bs : List Byte) :
    field n (off + 1) (b :: bs) = (field n off bs).mapError .behindByte := by
  by_cases hfit : off + n ≤ bs.length
  · have hfit' : off + 1 + n ≤ (b :: bs).length := by rw [List.length_cons]; omega
    rw [field, field, if_pos hfit, if_pos hfit']; rfl
  · have hfit' : ¬ off + 1 + n ≤ (b :: bs).length := by rw [List.length_cons]; omega
    rw [field, field, if_neg hfit, if_neg hfit']; rfl

/-- The field in front is the number written there, as far as its bytes hold it. -/
theorem field_leBytes_mod (n v : Nat) (rest : List Byte) : field n 0 (leBytes n v ++ rest) = .ok (v % 256 ^ n) := by
  simp [field, leNat_leBytes, List.take_left']

/-- The field in front is the bit vector written there, where its bytes hold it. -/
@[simp] theorem field_leBytes {n w : Nat} (hw : w ≤ 8 * n) (v : BitVec w) (rest : List Byte) :
    field n 0 (leBytes n v.toNat ++ rest) = .ok v.toNat := by
  have hsize : v.toNat < 256 ^ n := calc
    v.toNat < 2 ^ w := v.isLt
    _ ≤ 2 ^ (8 * n) := Nat.pow_le_pow_right (by omega) hw
    _ = 256 ^ n := Nat.pow_mul 2 8 n
  rw [field_leBytes_mod, Nat.mod_eq_of_lt hsize]

/-- The one-byte field in front is that byte. -/
@[simp] theorem field_byte (b : Byte) (rest : List Byte) : field 1 0 (b :: rest) = .ok b.toNat := by
  simp [field, leNat]

/-! How a decoder goes on after a field that is there. -/

@[simp] theorem ok_bind {α β : Type} (a : α) (f : α → Except DecodeError β) : Except.ok a >>= f = f a := rfl

@[simp] theorem pure_eq_ok {α : Type} (a : α) : (pure a : Except DecodeError α) = .ok a := rfl

@[simp] theorem mapError_ok {ε ε' α : Type} (f : ε → ε') (a : α) : (Except.ok a).mapError f = .ok a := rfl

/-- A register field is read back by its remainder. -/
theorem regOf_eq {n : Nat} {k : Reg} (h : n % 8 = k.val) : regOf n = k := Fin.ext h

/-- A scale field is read back by its remainder. -/
theorem scaleOf_eq {n : Nat} {k : Scale} (h : n % 4 = k.val) : scaleOf n = k := Fin.ext h

/-- The value of the first of some bytes, 0 where there is none. -/
def firstByte (bs : List Byte) : Nat := (bs.headD 0).toNat

theorem firstByte_ofNat {x : Nat} (hx : x < 256) (bs : List Byte) : firstByte (BitVec.ofNat 8 x :: bs) = x :=
  Nat.mod_eq_of_lt hx

/-- The one-byte field in front of some bytes is their first. -/
theorem field_firstByte {bs : List Byte} (hbs : bs ≠ []) (rest : List Byte) :
    field 1 0 (bs ++ rest) = .ok (firstByte bs) := by
  cases bs with
  | nil => contradiction
  | cons b bs => exact field_byte b _

/-! ## x-operands (30_encoding.md R105 to R107) -/

/-- The fields of an x1-byte with index only. -/
theorem x1_indexed {x1 c : Nat} {s : Scale} {k : Reg} (hx : x1 = 64 * c + 8 * s.val + k.val) :
    x1Reserved x1 = false ∧ x1 / 32 % 2 = 0 ∧ x1 / 64 = c ∧ scaleOf (x1 / 8) = s ∧ regOf x1 = k := by
  have hindex : x1 / 32 % 2 = 0 := by omega
  exact ⟨by simp [x1Reserved, hindex], hindex, by omega, scaleOf_eq (by omega), regOf_eq (by omega)⟩

/-- The fields of an x1-byte with base only. -/
theorem x1_based {x1 c : Nat} {k : Reg} (hx : x1 = 64 * c + 32 + k.val) :
    x1Reserved x1 = false ∧ x1 / 32 % 2 = 1 ∧ x1 / 16 % 2 = 0 ∧ x1 / 64 = c ∧ regOf x1 = k := by
  have hbit4 : x1 / 16 % 2 = 0 := by omega
  have hbit3 : x1 / 8 % 2 = 0 := by omega
  exact ⟨by simp [x1Reserved, hbit4, hbit3], by omega, hbit4, by omega, regOf_eq (by omega)⟩

/-- The fields of an x1-byte with base and index, whose submode is not 01. -/
theorem x1_basedIndexed {x1 c : Nat} {k : Reg} (hx : x1 = 64 * c + 48 + k.val) (hc : c ≠ 1) :
    x1Reserved x1 = false ∧ x1 / 32 % 2 = 1 ∧ x1 / 16 % 2 = 1 ∧ x1 / 64 = c ∧ regOf x1 = k := by
  have hsubmode : x1 / 64 = c := by omega
  have hbit3 : x1 / 8 % 2 = 0 := by omega
  exact ⟨by simp [x1Reserved, hbit3, hsubmode, hc], by omega, by omega, hsubmode, regOf_eq (by omega)⟩

/-- A 0-byte that is zero passes. -/
@[simp] theorem zeroByte_zero (a b c : Byte) (rest : List Byte) : zeroByte 3 (a :: b :: c :: 0#8 :: rest) = .ok () := by
  simp only [zeroByte, field_succ, field_byte, mapError_ok, ok_bind]; rfl

/-- A byte whose bits 7:5 are zero passes as an x2-byte. -/
theorem x2Byte_ofNat {x2 : Nat} (hx : x2 < 32) (a b c : Byte) (rest : List Byte) :
    x2Byte 3 (a :: b :: c :: BitVec.ofNat 8 x2 :: rest) = .ok x2 := by
  have hbyte : (BitVec.ofNat 8 x2).toNat = x2 := Nat.mod_eq_of_lt (by omega)
  have hhigh : x2 / 32 = 0 := by omega
  simp only [x2Byte, field_succ, field_byte, mapError_ok, ok_bind, hbyte, hhigh]; rfl

/-- The x2-byte with scale `s` and index register `j`, and its fields. -/
theorem x2Byte_scaled (s : Scale) (j : Reg) (a b c : Byte) (rest : List Byte) :
    ∃ x2, x2Byte 3 (a :: b :: c :: BitVec.ofNat 8 (8 * s.val + j.val) :: rest) = .ok x2 ∧
      scaleOf (x2 / 8) = s ∧ regOf x2 = j :=
  ⟨_, x2Byte_ofNat (by omega) a b c rest, scaleOf_eq (by omega), regOf_eq (by omega)⟩

/-- The first byte of the x-bytes is the x1-byte. -/
@[simp] theorem field_encodeX (m : XMode) (rest : List Byte) :
    field 1 0 (encodeX m ++ rest) = .ok (firstByte (encodeX m)) := by
  cases m <;> exact field_byte _ _

/-- The x-bytes of a mode decode to it. -/
theorem decodeX_encodeX (m : XMode) (op b1 : Byte) (rest : List Byte) :
    decodeX 2 (firstByte (encodeX m)) (op :: b1 :: (encodeX m ++ rest)) = .ok m := by
  generalize hx : firstByte (encodeX m) = x1
  cases m with
  | i s k =>
    rw [encodeX, firstByte_ofNat (by omega)] at hx
    obtain ⟨hres, hindex, hsub, hs, hk⟩ := x1_indexed (c := 0) (s := s) (k := k) (hx.symm.trans (by omega))
    simp [decodeX, encodeX, hres, hindex, hsub, hs, hk, -Fin.ofNat_eq_cast]
  | id1 s k d =>
    rw [encodeX, firstByte_ofNat (by omega)] at hx
    obtain ⟨hres, hindex, hsub, hs, hk⟩ := x1_indexed (c := 1) (s := s) (k := k) (hx.symm.trans (by omega))
    simp [decodeX, encodeX, hres, hindex, hsub, hs, hk, -Fin.ofNat_eq_cast]
  | id3 s k d =>
    rw [encodeX, firstByte_ofNat (by omega)] at hx
    obtain ⟨hres, hindex, hsub, hs, hk⟩ := x1_indexed (c := 2) (s := s) (k := k) (hx.symm.trans (by omega))
    simp [decodeX, encodeX, hres, hindex, hsub, hs, hk, -Fin.ofNat_eq_cast]
  | id4 s k d =>
    rw [encodeX, firstByte_ofNat (by omega)] at hx
    obtain ⟨hres, hindex, hsub, hs, hk⟩ := x1_indexed (c := 3) (s := s) (k := k) (hx.symm.trans (by omega))
    simp [decodeX, encodeX, hres, hindex, hsub, hs, hk, -Fin.ofNat_eq_cast]
  | b k =>
    rw [encodeX, firstByte_ofNat (by omega)] at hx
    obtain ⟨hres, hindex, hbase, hsub, hk⟩ := x1_based (c := 0) (k := k) (hx.symm.trans (by omega))
    simp [decodeX, encodeX, hres, hindex, hbase, hsub, hk, -Fin.ofNat_eq_cast]
  | bd1 k d =>
    rw [encodeX, firstByte_ofNat (by omega)] at hx
    obtain ⟨hres, hindex, hbase, hsub, hk⟩ := x1_based (c := 1) (k := k) (hx.symm.trans (by omega))
    simp [decodeX, encodeX, hres, hindex, hbase, hsub, hk, -Fin.ofNat_eq_cast]
  | bd3 k d =>
    rw [encodeX, firstByte_ofNat (by omega)] at hx
    obtain ⟨hres, hindex, hbase, hsub, hk⟩ := x1_based (c := 2) (k := k) (hx.symm.trans (by omega))
    simp [decodeX, encodeX, hres, hindex, hbase, hsub, hk, -Fin.ofNat_eq_cast]
  | bd4 k d =>
    rw [encodeX, firstByte_ofNat (by omega)] at hx
    obtain ⟨hres, hindex, hbase, hsub, hk⟩ := x1_based (c := 3) (k := k) (hx.symm.trans (by omega))
    simp [decodeX, encodeX, hres, hindex, hbase, hsub, hk, -Fin.ofNat_eq_cast]
  | bi k s j =>
    rw [encodeX, firstByte_ofNat (by omega)] at hx
    obtain ⟨hres, hindex, hbase, hsub, hk⟩ := x1_basedIndexed (c := 0) (k := k) (hx.symm.trans (by omega)) (by decide)
    obtain ⟨x2, hx2, hs, hj⟩ := x2Byte_scaled s j op b1 (BitVec.ofNat 8 (48 + k.val)) (rest)
    simp [decodeX, encodeX, hres, hindex, hbase, hsub, hk, hx2, hs, hj, -Fin.ofNat_eq_cast]
  | bid2 k s j d =>
    rw [encodeX, firstByte_ofNat (by omega)] at hx
    obtain ⟨hres, hindex, hbase, hsub, hk⟩ := x1_basedIndexed (c := 2) (k := k) (hx.symm.trans (by omega)) (by decide)
    obtain ⟨x2, hx2, hs, hj⟩ := x2Byte_scaled s j op b1 (BitVec.ofNat 8 (176 + k.val)) (leBytes 2 d.toNat ++ rest)
    simp [decodeX, encodeX, hres, hindex, hbase, hsub, hk, hx2, hs, hj, -Fin.ofNat_eq_cast]
  | bid4 k s j d =>
    rw [encodeX, firstByte_ofNat (by omega)] at hx
    obtain ⟨hres, hindex, hbase, hsub, hk⟩ := x1_basedIndexed (c := 3) (k := k) (hx.symm.trans (by omega)) (by decide)
    obtain ⟨x2, hx2, hs, hj⟩ := x2Byte_scaled s j op b1 (BitVec.ofNat 8 (240 + k.val)) (leBytes 4 d.toNat ++ rest)
    simp [decodeX, encodeX, hres, hindex, hbase, hsub, hk, hx2, hs, hj, -Fin.ofNat_eq_cast]

/-! ## q-operands (30_encoding.md R87 to R99) -/

/-- The low field of a qr-byte is the one the encoder was given. -/
theorem firstByte_encodeQ_mod {n r : Nat} (q : QOp n) (hr : r < 8) : firstByte (encodeQ q r) % 8 = r := by
  cases q <;> rw [encodeQ, firstByte_ofNat (by omega)] <;> omega

/-- An immediate is refused for an address alone. -/
theorem immFor_ok {n : Nat} {spec : QSpec} {q : QOp n} (himm : q.isImm = true) (hq : q.legal spec = true) :
    immFor spec q = .ok q := by
  cases spec with
  | address => simp [QOp.legal, himm] at hq
  | value | longValue => rfl

/-- An immediate of `w` bits fits the bytes it takes in the instruction. -/
theorem le_immBytes {w : Nat} (hw : w = 8 ∨ w = 16 ∨ w = 32 ∨ w = 64) : w ≤ 8 * immBytes w := by
  rcases hw with rfl | rfl | rfl | rfl <;> decide

/-- The qr-byte and the q-bytes of a legal operand decode to it, whatever the low field of the qr-byte. -/
theorem decodeQ_encodeQ {n r : Nat} {spec : QSpec} {q : QOp n} (hn : n = 8 ∨ n = 16 ∨ n = 32 ∨ n = 64) (hr : r < 8)
    (hq : q.legal spec = true) (op : Byte) (rest : List Byte) :
    decodeQ n spec (op :: (encodeQ q r ++ rest)) (firstByte (encodeQ q r)) = .ok q := by
  generalize hb : firstByte (encodeQ q r) = b1
  cases q with
  | reg k =>
    rw [encodeQ, firstByte_ofNat (by omega)] at hb
    have hmode : b1 / 64 = 0 := by omega
    have hk : regOf (b1 / 8) = k := regOf_eq (by omega)
    simp [decodeQ, hmode, hk, -Fin.ofNat_eq_cast]
  | base k =>
    rw [encodeQ, firstByte_ofNat (by omega)] at hb
    have hmode : b1 / 64 = 1 := by omega
    have hk : regOf (b1 / 8) = k := regOf_eq (by omega)
    simp [decodeQ, hmode, hk, -Fin.ofNat_eq_cast]
  | bd2 k d =>
    rw [encodeQ, firstByte_ofNat (by omega)] at hb
    have hmode : b1 / 64 = 2 := by omega
    have hk : regOf (b1 / 8) = k := regOf_eq (by omega)
    simp [decodeQ, encodeQ, hmode, hk, -Fin.ofNat_eq_cast]
  | mema a =>
    rw [encodeQ, firstByte_ofNat (by omega)] at hb
    have hmode : b1 / 64 = 3 := by omega
    have hsub : b1 / 8 % 8 = 0 := by omega
    simp [decodeQ, encodeQ, hmode, hsub]
  | immMinus1 =>
    rw [encodeQ, firstByte_ofNat (by omega)] at hb
    have hmode : b1 / 64 = 3 := by omega
    have hsub : b1 / 8 % 8 = 1 := by omega
    simp [decodeQ, hmode, hsub, immFor_ok rfl hq]
  | imm0 =>
    rw [encodeQ, firstByte_ofNat (by omega)] at hb
    have hmode : b1 / 64 = 3 := by omega
    have hsub : b1 / 8 % 8 = 2 := by omega
    simp [decodeQ, hmode, hsub, immFor_ok rfl hq]
  | imm1 =>
    rw [encodeQ, firstByte_ofNat (by omega)] at hb
    have hmode : b1 / 64 = 3 := by omega
    have hsub : b1 / 8 % 8 = 3 := by omega
    simp [decodeQ, hmode, hsub, immFor_ok rfl hq]
  | immv v =>
    rw [encodeQ, firstByte_ofNat (by omega)] at hb
    have hmode : b1 / 64 = 3 := by omega
    have hsub : b1 / 8 % 8 = 4 := by omega
    simp [decodeQ, encodeQ, hmode, hsub, le_immBytes hn, v.isLt, immFor_ok rfl hq]
  | imm2 h =>
    rw [encodeQ, firstByte_ofNat (by omega)] at hb
    have hmode : b1 / 64 = 3 := by omega
    have hsub : b1 / 8 % 8 = 5 := by omega
    have hspec : spec ≠ .value := by rintro rfl; exact absurd hq (by simp [QOp.legal, QOp.isImm2])
    simp [decodeQ, encodeQ, hmode, hsub, hspec, immFor_ok rfl hq]
  | x m =>
    rw [encodeQ, firstByte_ofNat (by omega)] at hb
    have hmode : b1 / 64 = 3 := by omega
    have hsub : b1 / 8 % 8 = 7 := by omega
    simp [decodeQ, encodeQ, hmode, hsub, decodeX_encodeX]

/-! ## Conditions, register numbers and m-operands (30_encoding.md R115 to R121) -/

theorem Cond.ofNumber_number (c : Cond) : Cond.ofNumber c.number = some c := by cases c <;> rfl

theorem Cond.number_lt (c : Cond) : c.number < 11 := by cases c <;> decide

theorem GReg.number_lt (g : GReg) : g.number < 32 := by
  have hcode : g.file.code < 4 := by cases g.file <;> decide
  rw [GReg.number]
  omega

theorem GReg.ofNumber_number (g : GReg) : GReg.ofNumber g.number = g := by
  obtain ⟨file, idx⟩ := g
  have hfile : (8 * file.code + idx.val) / 8 = file.code := by omega
  have hidx : regOf ((8 * file.code + idx.val) % 8) = idx := regOf_eq (by omega)
  rw [GReg.ofNumber, GReg.number, hfile, hidx]
  cases file <;> rfl

/-- Every order of the fields packs them into one byte, each where it is read back. -/
theorem MrLayout.fields_pack (layout : MrLayout) {n g r : Nat} (hn : n < 4) (hg : g < 2) (hr : r < 32) :
    layout.pack n g r < 256 ∧ layout.nField (layout.pack n g r) = n ∧
      layout.gField (layout.pack n g r) = g ∧ layout.rField (layout.pack n g r) = r := by
  cases layout <;> simp only [MrLayout.pack, MrLayout.nField, MrLayout.gField, MrLayout.rField] <;> omega

theorem decodeX_reserved {x1 : Nat} (h : x1Reserved x1 = true) (off : Nat) (bs : List Byte) :
    decodeX off x1 bs = .error .reserved :=
  if_pos h

/-- No x-byte mode has an x1-byte of a reserved pattern. -/
theorem x1Reserved_encodeX (m : XMode) : x1Reserved (firstByte (encodeX m)) = false := by
  by_contra h
  have hdecode := decodeX_encodeX m 0 0 []
  rw [decodeX_reserved (Bool.eq_true_of_not_eq_false h)] at hdecode
  contradiction

/-- The g-field of an mr-byte: 0 for an address in the instruction, 1 for the modes with x-bytes (30_encoding.md R116). -/
def MOp.gCode : MOp → Nat
  | .mmema _ => 0
  | .mreg _ | .x _ => 1

/-- The mr-byte of an operand. -/
theorem firstByte_encodeM (p : Params) (n : SizeCode) (r : GReg) (m : MOp) :
    firstByte (encodeM p n r m) = p.mrLayout.pack n.val m.gCode r.number := by
  have hg : m.gCode < 2 := by cases m <;> simp [MOp.gCode]
  have hpack := (p.mrLayout.fields_pack n.isLt hg r.number_lt).1
  cases m <;> exact firstByte_ofNat hpack _

/-- The m-bytes of an operand whose register group fits decode to it. -/
theorem decodeM_encodeM {p : Params} (hp : x1Reserved p.mregX1.toNat = true) {n : SizeCode} {r : GReg} {m : MOp}
    (hm : m.groupFits n = true) (op : Byte) (rest : List Byte) :
    decodeM p (op :: (encodeM p n r m ++ rest)) m.gCode n = .ok m := by
  cases m with
  | mmema a => simp [decodeM, encodeM, MOp.gCode]
  | mreg g =>
    have hfits : g.groupFits n = true := hm
    simp [decodeM, encodeM, MOp.gCode, x2Byte_ofNat g.number_lt, GReg.ofNumber_number, hfits]
  | x m =>
    have hx1 : firstByte (encodeX m) ≠ p.mregX1.toNat := by
      intro h
      rw [← h, x1Reserved_encodeX] at hp
      contradiction
    simp [decodeM, encodeM, MOp.gCode, hx1, decodeX_encodeX]

/-! ## j-operands (30_encoding.md R120 to R126) -/

/-- The high field of an ij-byte is the number of the condition. -/
theorem firstByte_encodeJ_div (c : Cond) (j : JOp) : firstByte (encodeJ c j) / 16 = c.number := by
  have hc := c.number_lt
  cases j <;> rw [encodeJ, firstByte_ofNat (by omega)] <;> omega

/-- The ij-byte and the j-bytes of an operand decode to it. -/
theorem decodeJ_encodeJ (c : Cond) (j : JOp) (op : Byte) (rest : List Byte) :
    decodeJ (op :: (encodeJ c j ++ rest)) (firstByte (encodeJ c j)) = .ok j := by
  have hc := c.number_lt
  generalize hb : firstByte (encodeJ c j) = b1
  cases j with
  | jregi k =>
    rw [encodeJ, firstByte_ofNat (by omega)] at hb
    have hmode : b1 % 16 < 8 := by omega
    have hk : regOf b1 = k := regOf_eq (by omega)
    simp [decodeJ, hmode, hk, -Fin.ofNat_eq_cast]
  | pcrp d =>
    rw [encodeJ, firstByte_ofNat (by omega)] at hb
    have hmode : b1 % 16 = 8 := by omega
    simp [decodeJ, encodeJ, hmode]
  | pcrm d =>
    rw [encodeJ, firstByte_ofNat (by omega)] at hb
    have hmode : b1 % 16 = 9 := by omega
    simp [decodeJ, encodeJ, hmode]
  | jmema a =>
    rw [encodeJ, firstByte_ofNat (by omega)] at hb
    have hmode : b1 % 16 = 10 := by omega
    simp [decodeJ, encodeJ, hmode]
  | jmemai a =>
    rw [encodeJ, firstByte_ofNat (by omega)] at hb
    have hmode : b1 % 16 = 11 := by omega
    simp [decodeJ, encodeJ, hmode]
  | sprmi d =>
    rw [encodeJ, firstByte_ofNat (by omega)] at hb
    have hmode : b1 % 16 = 12 := by omega
    simp [decodeJ, encodeJ, hmode]

/-! ## The formats (30_encoding.md R85, R112 to R115, R120, R127 to R130) -/

section
variable (op : Byte) (rest : List Byte)

theorem decodeQR_encodeQ {n : Nat} {spec : QSpec} {q : QOp n} (hn : n = 8 ∨ n = 16 ∨ n = 32 ∨ n = 64)
    (hq : q.legal spec = true) (r : Reg) (mk : QOp n → Reg → Instr) :
    decodeQR n spec (op :: (encodeQ q r.val ++ rest)) (firstByte (encodeQ q r.val)) mk = .ok (mk q r) := by
  rw [decodeQR, decodeQ_encodeQ hn r.isLt hq, ok_bind, regOf_eq (firstByte_encodeQ_mod q r.isLt), pure_eq_ok]

theorem decodeQO_encodeQ {n : Nat} {spec : QSpec} {q : QOp n} (hn : n = 8 ∨ n = 16 ∨ n = 32 ∨ n = 64)
    (hq : q.legal spec = true) (mk : QOp n → Instr) :
    decodeQO n spec (op :: (encodeQ q 0 ++ rest)) (firstByte (encodeQ q 0)) mk = .ok (mk q) := by
  have hlow := firstByte_encodeQ_mod q (show 0 < 8 by decide)
  rw [decodeQO, if_pos hlow, decodeQ_encodeQ hn (by decide) hq, ok_bind, pure_eq_ok]

theorem decodeQC_encodeQ {n : Nat} {q : QOp n} {c : Cond} {k : Nat} (hn : n = 8 ∨ n = 16 ∨ n = 32 ∨ n = 64)
    (hq : (q.legal .address && c.number / 8 == k) = true) (mk : QOp n → Cond → Instr) :
    decodeQC n (8 * k) (op :: (encodeQ q (c.number % 8) ++ rest)) (firstByte (encodeQ q (c.number % 8))) mk =
      .ok (mk q c) := by
  obtain ⟨hlegal, hhigh⟩ := (Bool.and_eq_true _ _).mp hq
  have hlow : c.number % 8 < 8 := Nat.mod_lt _ (by decide)
  have hnumber : 8 * k + c.number % 8 = c.number := by rw [← of_decide_eq_true hhigh, Nat.div_add_mod]
  simp only [decodeQC, firstByte_encodeQ_mod q hlow, hnumber, Cond.ofNumber_number, decodeQ_encodeQ hn hlow hlegal,
    ok_bind, pure_eq_ok]

theorem decodeIR_ofNat (sc : Fin 32) (r : Reg) (mk : Fin 32 → Reg → Instr) :
    decodeIR (firstByte [BitVec.ofNat 8 (8 * sc.val + r.val)]) mk = .ok (mk sc r) := by
  have hsc : Fin.ofNat 32 ((8 * sc.val + r.val) / 8) = sc := Fin.ext (by simp only [Fin.val_ofNat]; omega)
  have hr : regOf (8 * sc.val + r.val) = r := regOf_eq (by omega)
  rw [firstByte_ofNat (by omega), decodeIR, hsc, hr, pure_eq_ok]

theorem decodeMR_encodeM {p : Params} (hp : x1Reserved p.mregX1.toNat = true) {n : SizeCode} {r : GReg} {m : MOp}
    (hfits : (r.groupFits n && m.groupFits n) = true) (mk : SizeCode → GReg → MOp → Instr) :
    decodeMR p (op :: (encodeM p n r m ++ rest)) (firstByte (encodeM p n r m)) mk = .ok (mk n r m) := by
  obtain ⟨hr, hm⟩ := (Bool.and_eq_true _ _).mp hfits
  have hgCode : m.gCode < 2 := by cases m <;> simp [MOp.gCode]
  obtain ⟨-, hnField, hgField, hrField⟩ := p.mrLayout.fields_pack n.isLt hgCode r.number_lt
  have hn : Fin.ofNat 4 n.val = n := Fin.ofNat_val_eq_self n
  rw [decodeMR, firstByte_encodeM, hnField, hgField, hrField, GReg.ofNumber_number, hn, if_pos hr,
    decodeM_encodeM hp hm, ok_bind, pure_eq_ok]

theorem decodeIJ_encodeJ (c : Cond) (j : JOp) (mk : Cond → JOp → Instr) :
    decodeIJ (op :: (encodeJ c j ++ rest)) (firstByte (encodeJ c j)) mk = .ok (mk c j) := by
  simp only [decodeIJ, firstByte_encodeJ_div, Cond.ofNumber_number, decodeJ_encodeJ, ok_bind, pure_eq_ok]

/-- The second byte is the low byte of the offset, the next two are the rest of it. -/
theorem decodeA3_leBytes (off : BitVec 24) (mk : BitVec 24 → Instr) :
    decodeA3 (op :: (leBytes 3 off.toNat ++ rest)) (firstByte (leBytes 3 off.toNat)) mk = .ok (mk off) := by
  have hhigh : field 2 2 (op :: (leBytes 3 off.toNat ++ rest)) = .ok (off.toNat / 256 % 256 ^ 2) := by
    rw [leBytes, List.cons_append, field_succ, field_succ, field_leBytes_mod]; rfl
  have hoff : off.toNat % 256 + 256 * (off.toNat / 256 % 256 ^ 2) = off.toNat := by omega
  have hlow : firstByte (leBytes 3 off.toNat) = off.toNat % 256 := rfl
  rw [decodeA3, hhigh, ok_bind, hlow, hoff, BitVec.ofNat_toNat, BitVec.setWidth_eq, pure_eq_ok]

theorem decodeB14_leBytes (stkc : Byte) (bmsk : Long) (mk : Byte → Long → Instr) :
    decodeB14 (op :: (stkc :: leBytes 4 bmsk.toNat ++ rest)) (firstByte (stkc :: leBytes 4 bmsk.toNat)) mk =
      .ok (mk stkc bmsk) := by
  simp [decodeB14, firstByte]

theorem decodeB1_firstByte (stkc : Byte) (mk : Byte → Instr) : decodeB1 (firstByte [stkc]) mk = .ok (mk stkc) := by
  simp [decodeB1, firstByte]

theorem decodeN04_leBytes (bmsk : Long) (mk : Long → Instr) :
    decodeN04 (op :: (0 :: leBytes 4 bmsk.toNat ++ rest)) (firstByte (0 :: leBytes 4 bmsk.toNat)) mk =
      .ok (mk bmsk) := by
  simp [decodeN04, firstByte]

end

/-- The operands of a well-formed instruction decode under its mnemonic, format by format. -/
theorem decodeOperands_encodeOperands {p : Params} (hp : x1Reserved p.mregX1.toNat = true) {i : Instr}
    (hi : i.wellFormed = true) (op : Byte) (rest : List Byte) :
    decodeOperands p (op :: (encodeOperands p i ++ rest)) (firstByte (encodeOperands p i)) i.mnemonic = .ok i := by
  cases i with
  | call c j | jump c j => exact decodeIJ_encodeJ op rest c j _
  | callb off | callf off | jumpb off | jumpf off => exact decodeA3_leBytes op rest off _
  | enter stkc | leave stkc | ret stkc => exact decodeB1_firstByte stkc _
  | entersav stkc bmsk | leaveres stkc bmsk => exact decodeB14_leBytes op rest stkc bmsk _
  | pushregs bmsk | popregs bmsk => exact decodeN04_leBytes op rest bmsk _
  | halt | nop => rfl
  | gmov n r m | gsto n r m => exact decodeMR_encodeM op rest hp hi _
  | sliw sc r | slil sc r | srliw sc r | srlil sc r | sraiw sc r | srail sc r | rliw sc r | rlil sc r | rriw sc r
  | rril sc r => exact decodeIR_ofNat sc r _
  | set0w q c | set0l q c => exact decodeQC_encodeQ (k := 0) op rest (by decide) hi _
  | set1w q c | set1l q c => exact decodeQC_encodeQ (k := 1) op rest (by decide) hi _
  -- `by exact` waits until the mnemonic has fixed the operand's specifier
  | movflags | stoflags | pushw | pushl | pushf | pushd | popw | popl | popf | popd =>
    exact decodeQO_encodeQ op rest (by decide) (by exact hi) _
  | _ => exact decodeQR_encodeQ op rest (by decide) (by exact hi) _ _

/-! ## The length and the opcode -/

open Laws.EncodingLength in
/-- The encoder writes the length of every instruction, an even number of bytes from 2 to 10 (30_encoding.md R82). -/
theorem encodingLength (i : Instr) : Laws.EncodingLength.Statement i := by
  cases i with
  | call c j | jump c j => exact of_j _ c j (fun _ => rfl) rfl
  | gmov n r m | gsto n r m => exact of_m _ n r m (fun _ => rfl) rfl
  | callb | callf | jumpb | jumpf | enter | leave | ret | entersav | leaveres | pushregs | popregs | halt | nop
  | sliw | slil | srliw | srlil | sraiw | srail | rliw | rlil | rriw | rril =>
    exact ⟨fun _ => rfl, by simp [Instr.length]⟩
  | _ => exact of_q _ _ _ (by decide) (fun _ => rfl) rfl

theorem Mnemonic.mem_all (m : Mnemonic) : m ∈ Mnemonic.all := by cases m <;> decide

/-- Searching a list by a property that one of its members has finds a member that has it. -/
theorem exists_find? {α : Type} {l : List α} {f : α → Bool} {a : α} (ha : a ∈ l) (hf : f a = true) :
    ∃ b ∈ l, l.find? f = some b ∧ f b = true := by
  obtain ⟨b, hb⟩ := Option.isSome_iff_exists.1 (List.find?_isSome.2 ⟨a, ha, hf⟩)
  exact ⟨b, List.mem_of_find?_eq_some hb, hb, List.find?_some hb⟩

/-- A legal opcode map names each mnemonic by the byte it gives it (00_scope.md R6, 30_encoding.md R131). -/
theorem Params.mnemonicOf_opcodeOf {p : Params} (hkeys : p.opcodeMap.map Prod.fst = Mnemonic.all)
    (hvalues : (p.opcodeMap.map Prod.snd).Nodup) (m : Mnemonic) : p.mnemonicOf (p.opcodeOf m) = some m := by
  obtain ⟨e, he, rfl⟩ := List.mem_map.1 (hkeys ▸ Mnemonic.mem_all m)
  obtain ⟨d, hd, hfindKey, hdKey⟩ := exists_find? (f := fun c => c.1 == e.1) he (beq_self_eq_true _)
  obtain ⟨c, hc, hfindByte, hcByte⟩ := exists_find? (f := fun c => c.2 == d.2) hd (beq_self_eq_true _)
  have hcd : c = d := List.inj_on_of_nodup_map hvalues hc hd (eq_of_beq hcByte)
  have hopcode : p.opcodeOf e.1 = d.2 := by simp [Params.opcodeOf, hfindKey]
  rw [hopcode, Params.mnemonicOf, hfindByte, Option.map_some, hcd, eq_of_beq hdKey]

/-! ## Whole instructions -/

/-- What legal parameters grant the encoding: a map that names each mnemonic by a byte of its own, and an mreg pattern
no x-byte mode uses (00_scope.md R6). -/
theorem Params.wf_encoding {p : Params} (hp : p.wf = true) :
    p.opcodeMap.map Prod.fst = Mnemonic.all ∧ (p.opcodeMap.map Prod.snd).Nodup ∧
      x1Reserved p.mregX1.toNat = true := by
  simp only [Params.wf, Bool.and_eq_true, decide_eq_true_eq] at hp
  obtain ⟨⟨⟨-, hkeys⟩, hvalues⟩, hmreg⟩ := hp
  exact ⟨hkeys, hvalues, hmreg⟩

/-- Every instruction has a second byte. -/
theorem encodeOperands_ne_nil (p : Params) (i : Instr) : encodeOperands p i ≠ [] := by
  intro hnil
  obtain ⟨hlength, -, htwo, -⟩ := encodingLength i
  have hone : (encode p i).length = 1 := by rw [encode, hnil]; rfl
  have := hlength p
  omega

/-- Under legal parameters, what the encoder writes for a well-formed instruction decodes to it, whatever bytes follow
(30_encoding.md R83). -/
theorem decode_encode {p : Params} {i : Instr} (hp : p.wf = true) (hi : i.wellFormed = true) (rest : List Byte) :
    decode p (encode p i ++ rest) = .ok i := by
  obtain ⟨hkeys, hvalues, hmreg⟩ := Params.wf_encoding hp
  have hsecond : field 1 1 (p.opcodeOf i.mnemonic :: (encodeOperands p i ++ rest)) =
      .ok (firstByte (encodeOperands p i)) := by
    rw [field_succ, field_firstByte (encodeOperands_ne_nil p i), mapError_ok]
  rw [encode, List.cons_append, decode, field_byte, ok_bind, BitVec.ofNat_toNat, BitVec.setWidth_eq,
    Params.mnemonicOf_opcodeOf hkeys hvalues]
  simp only [hsecond, ok_bind, decodeOperands_encodeOperands hmreg hi]

namespace Machine

/-- Where memory holds some bytes at the pc, at most as many as the longest instruction has, they are fetched first. -/
theorem State.fetchBytes_of_holds {s : State} {bs : List Byte} (hlong : bs.length ≤ maxLength)
    (hfit : s.pc.toNat + bs.length ≤ s.params.memSize)
    (hmem : ∀ k b, bs[k]? = some b → s.mem.read (s.pc.toNat + k) = b) :
    s.fetchBytes = bs ++ s.fetchBytes.drop bs.length := by
  have hlength : bs.length ≤ s.fetchBytes.length := by rw [State.fetchBytes_length]; omega
  have htake : s.fetchBytes.take bs.length = bs := by
    refine List.ext_getElem (by simp only [List.length_take]; omega) fun k hk hk' => ?_
    rw [List.getElem_take, State.fetchBytes_getElem]
    exact hmem k _ (List.getElem?_eq_getElem hk')
  calc s.fetchBytes = s.fetchBytes.take bs.length ++ s.fetchBytes.drop bs.length := (List.take_append_drop _ _).symm
    _ = bs ++ s.fetchBytes.drop bs.length := by rw [htake]

/-- Settles O6: the fetched bytes begin with the encoding, which decodes to the instruction. -/
theorem stepRunsTheEncodedInstruction : Obligations.StepRunsTheEncodedInstruction := by
  intro s i hp hrunning heven hi hfit hmem
  obtain ⟨hlength, -, -, hten⟩ := encodingLength i
  rw [← hlength s.params] at hfit hten
  have hdecode : decode s.params s.fetchBytes = .ok i := by
    rw [State.fetchBytes_of_holds hten hfit hmem]
    exact decode_encode hp hi _
  exact step_of_fetch hrunning (State.fetch_of_decode heven hdecode)

end Machine

end Sys2Proof
end

section
/-! PROOFS. Effective addresses (30_encoding.md R105 to R108), what a q-operand denotes (R89 to R102), and the
conditions after a compare (R121). -/

namespace Sys2Proof

open Sys2Proof.Machine

/-! ## Effective addresses -/

/-- A register is the pattern of its unsigned number. -/
theorem long_eq_ofInt (x : Long) : x = BitVec.ofInt 32 x.toNat := by
  rw [BitVec.ofInt_natCast, BitVec.ofNat_toNat, BitVec.setWidth_eq]

/-- A scaled register is the pattern of the product (30_encoding.md R104). -/
theorem long_shiftLeft_eq_ofInt (x : Long) (sc : Nat) : x <<< sc = BitVec.ofInt 32 (x.toNat * 2 ^ sc) := by
  apply BitVec.eq_of_toInt_eq
  rw [BitVec.toInt_shiftLeft, BitVec.toInt_ofInt, Nat.shiftLeft_eq]
  push_cast
  rfl

/-- Patterns add as the integers they stand for. -/
theorem add_eq_ofInt {x y : Long} {i j : Int} (hx : x = BitVec.ofInt 32 i) (hy : y = BitVec.ofInt 32 j) :
    x + y = BitVec.ofInt 32 (i + j) := by
  rw [hx, hy, BitVec.ofInt_add]

/-- The pattern of an integer is its remainder modulo 2^32. -/
theorem toNat_of_eq_ofInt {x : Long} {i : Int} (hx : x = BitVec.ofInt 32 i) : (x.toNat : Int) = i % 4294967296 := by
  rw [hx, BitVec.toNat_ofInt]
  omega

/-- Settles O18: base, scaled index and displacement are each the pattern of an integer, and patterns add as integers. -/
theorem effectiveAddressesAreSums : Obligations.EffectiveAddressesAreSums := by
  intro s sc k j d1 d2 d3 d4
  have base := long_eq_ofInt (s.L k)
  have index (r : Reg) := long_shiftLeft_eq_ofInt (s.L r) sc.val
  have disp4 : d4 = BitVec.ofInt 32 d4.toInt := BitVec.ofInt_toInt.symm
  have baseIndex := add_eq_ofInt base (index j)
  exact ⟨toNat_of_eq_ofInt (index k), toNat_of_eq_ofInt (add_eq_ofInt (index k) rfl),
    toNat_of_eq_ofInt (add_eq_ofInt (index k) rfl), toNat_of_eq_ofInt (add_eq_ofInt (index k) disp4),
    rfl, toNat_of_eq_ofInt (add_eq_ofInt base rfl),
    toNat_of_eq_ofInt (add_eq_ofInt base rfl), toNat_of_eq_ofInt (add_eq_ofInt base disp4),
    toNat_of_eq_ofInt baseIndex, toNat_of_eq_ofInt (add_eq_ofInt baseIndex rfl),
    toNat_of_eq_ofInt (add_eq_ofInt baseIndex disp4)⟩

/-! ## q-operands -/

/-- A memory operand has the value read there (30_encoding.md R102). -/
theorem QKind.value_of_mem {n : Nat} {kind : QKind n} {a : Long} (h : kind = .mem a) (regs : Reg → BitVec n)
    (s : State) : kind.value regs s = (s.memRead a (n / 8)).map (BitVec.ofNat n) := by
  rw [h, QKind.value]

/-- Settles O19: registers and immediates by the table of R94, memory operands by `QKind.value_of_mem`. -/
theorem qOperandValues : Obligations.QOperandValues := by
  intro s k b h v x
  refine ⟨?regW, ?regL, ?regF, ?regD, ?regByteW, ?regByteL,
    ?_, ?_, ?_, ?_, ?_, ?_, ?_, ?_, ?_, ?_, ?_, ?_, ?_, ?_, ?_, ?_, ?_, ?_, -- the table, three values of six types
    ?immvByteW, ?immvByteL, ?immvWord, ?immvLong, ?immvFloat, ?immvDouble, ?imm2,
    ?word, ?long, ?float, ?double, ?byteW, ?byteL, ?kind⟩
  case word | long | float | double | byteW | byteL => exact fun q a hq => QKind.value_of_mem hq _ s
  case kind => exact fun n t a d m => ⟨rfl, rfl, rfl, rfl⟩
  all_goals rfl

end Sys2Proof

namespace Sys2Proof.Machine

/-! ## Conditions after a compare -/

section
variable {n : Nat} {a b : BitVec n}

/-- Where the numbers differ, icmp sets one flag of the unsigned order and one of the signed
(44_convert_compare.md R320). -/
theorem flags_icmp_of_ne (hab : a ≠ b) :
    luf (icmp a b) = a.ult b ∧ guf (icmp a b) = !a.ult b ∧ lf (icmp a b) = a.slt b ∧ gf (icmp a b) = !a.slt b ∧
      ef (icmp a b) = false := by
  rw [icmp, if_neg hab]
  cases a.ult b <;> cases a.slt b <;> decide

/-- Where the numbers are equal, icmp sets EF alone (44_convert_compare.md R320). -/
theorem flags_icmp_self (a : BitVec n) :
    luf (icmp a a) = false ∧ guf (icmp a a) = false ∧ lf (icmp a a) = false ∧ gf (icmp a a) = false ∧
      ef (icmp a a) = true := by
  rw [icmp, if_pos rfl]
  decide

/-- The flags of a fixed-point compare state the order of the numbers, unsigned and signed. -/
theorem flags_icmp_iff (a b : BitVec n) :
    (luf (icmp a b) = true ↔ a.toNat < b.toNat) ∧ (guf (icmp a b) = true ↔ b.toNat < a.toNat) ∧
      (lf (icmp a b) = true ↔ a.toInt < b.toInt) ∧ (gf (icmp a b) = true ↔ b.toInt < a.toInt) ∧
      (ef (icmp a b) = true ↔ a.toNat = b.toNat) := by
  by_cases hab : a = b
  · subst hab
    simp [flags_icmp_self]
  · have hnat : a.toNat ≠ b.toNat := mt BitVec.eq_of_toNat_eq hab
    have hint : a.toInt ≠ b.toInt := mt BitVec.eq_of_toInt_eq hab
    simp only [flags_icmp_of_ne hab, Bool.not_eq_true', BitVec.ult_iff_lt, BitVec.lt_def, BitVec.slt_iff_toInt_lt,
      ← Bool.not_eq_true]
    refine ⟨trivial, ?_, trivial, ?_, ?_⟩
    · omega
    · omega
    · exact ⟨nofun, fun h => absurd h hnat⟩

end

/-- Where its operand is readable, cmpl completes and writes icmp of the register and the operand
(44_convert_compare.md R322). -/
theorem exec_cmpl {q : QOp 32} {r : Reg} {s : State} {v : Long} (hq : q.long s = .ok v) :
    exec (.cmpl q r) s = .next ((s.setFlags (icmp (s.L r) v)).setPc (s.npc (Instr.cmpl q r).length)) := by
  change execCmpl q r s = _
  rw [execCmpl, hq]
  rfl

/-- Settles O31: each condition is an or of flags, and each flag a comparison of the numbers. -/
theorem conditionsAfterACompare : Obligations.ConditionsAfterACompare := by
  intro q r s t v hq ht
  obtain rfl := Host.Outcome.next.inj ((exec_cmpl hq).symm.trans ht)
  obtain ⟨hluf, hguf, hlf, hgf, hef⟩ := flags_icmp_iff (s.L r) v
  have hequal : (s.L r).toNat = v.toNat ↔ (s.L r).toInt = v.toInt := BitVec.toNat_eq.symm.trans BitVec.toInt_inj.symm
  simp only [condHolds, State.setPc_flags, State.setFlags_flags, Bool.or_eq_true, Bool.not_eq_true',
    ← Bool.not_eq_true, hluf, hguf, hlf, hgf, hef, true_and]
  omega

end Sys2Proof.Machine
end

section
/-! PROOFS. What decodes is what the encoder writes (30_encoding.md R133), the converse of the round trip. A field that
was read is in front of the bytes it was read from, so the bytes of each operand begin with the encoding of what was read;
each format adds its byte, and every mnemonic has one format. -/

namespace Sys2Proof

/-- Settles O1: the round trip of `decode_encode`. -/
theorem decodeEncodeRoundTrip : Obligations.DecodeEncodeRoundTrip :=
  fun _ _ rest hp hi => decode_encode hp hi rest

/-! ## Fields -/

/-- What two decoders in sequence answer. -/
@[simp] theorem decode_bind_eq_ok {α β : Type} {x : Except DecodeError α} {f : α → Except DecodeError β} {b : β} :
    x >>= f = .ok b ↔ ∃ a, x = .ok a ∧ f a = .ok b := by
  cases x <;> simp [bind, Except.bind]

@[simp] theorem mapError_eq_ok {ε ε' α : Type} {x : Except ε α} {f : ε → ε'} {a : α} :
    x.mapError f = .ok a ↔ x = .ok a := by
  cases x <;> simp [Except.mapError]

/-- Bytes are written again from the number they stand for. -/
theorem leBytes_leNat (bs : List Byte) : leBytes bs.length (leNat bs) = bs := by
  induction bs with
  | nil => rfl
  | cons b bs ih =>
    have hlow : BitVec.ofNat 8 (b.toNat + 256 * leNat bs) = b := BitVec.eq_of_toNat_eq (by
      rw [BitVec.toNat_ofNat]; omega)
    have hhigh : (b.toNat + 256 * leNat bs) / 256 = leNat bs := by omega
    rw [List.length_cons, leNat, leBytes, hlow, hhigh, ih]

theorem leNat_lt (bs : List Byte) : leNat bs < 256 ^ bs.length := by
  induction bs with
  | nil => decide
  | cons b bs ih =>
    rw [leNat, List.length_cons, pow_succ]
    omega

/-- A field that was read is in front of the bytes. -/
theorem field_eq_ok {n v : Nat} {bs : List Byte} (h : field n 0 bs = .ok v) : v < 256 ^ n ∧ leBytes n v <+: bs := by
  unfold field at h
  split at h
  case isFalse => contradiction
  case isTrue hfit =>
    obtain rfl := Except.ok.inj h
    have hlength : (bs.take n).length = n := by rw [List.length_take]; omega
    have hsize := leNat_lt (bs.take n)
    have hback := leBytes_leNat (bs.take n)
    rw [hlength] at hsize hback
    exact ⟨hsize, hback.symm ▸ List.take_prefix n bs⟩

/-- A field that was read, kept in `w` bits that hold it, is in front of the bytes. -/
theorem field_prefix {n v w : Nat} {bs : List Byte} (h : field n 0 bs = .ok v) (hw : 8 * n ≤ w ∨ v < 2 ^ w) :
    leBytes n (BitVec.ofNat w v).toNat <+: bs := by
  obtain ⟨hsize, hbytes⟩ := field_eq_ok h
  have hheld : v < 2 ^ w := hw.elim (fun hw => calc
    v < 256 ^ n := hsize
    _ = 2 ^ (8 * n) := (Nat.pow_mul 2 8 n).symm
    _ ≤ 2 ^ w := Nat.pow_le_pow_right (by decide) hw) id
  rwa [BitVec.toNat_ofNat, Nat.mod_eq_of_lt hheld]

/-- A byte that was read is the first. -/
theorem field_byte_eq_ok {v : Nat} {bs : List Byte} (h : field 1 0 bs = .ok v) :
    ∃ b rest, bs = b :: rest ∧ v = b.toNat := by
  cases bs with
  | nil => contradiction
  | cons b rest => exact ⟨b, rest, rfl, (Except.ok.inj ((field_byte b rest).symm.trans h)).symm⟩

/-- A byte is written again from its fields. -/
theorem ofNat_eq_byte {x : Nat} {b : Byte} (h : x = b.toNat) : BitVec.ofNat 8 x = b := by
  rw [h, BitVec.ofNat_toNat, BitVec.setWidth_eq]

theorem regOf_val (n : Nat) : (regOf n).val = n % 8 := rfl

theorem scaleOf_val (n : Nat) : (scaleOf n).val = n % 4 := rfl

/-- A byte that is written again from its fields, then bytes that stand in front of those after it. -/
theorem byte_cons_prefix {x : Nat} {b : Byte} {l bs : List Byte} (hx : x = b.toNat) (hl : l <+: bs) :
    BitVec.ofNat 8 x :: l <+: b :: bs :=
  List.cons_prefix_cons.2 ⟨ofNat_eq_byte hx, hl⟩

/-- A byte that was read is in front of the bytes. -/
theorem field_byte_prefix {v : Nat} {bs : List Byte} (h : field 1 0 bs = .ok v) : [BitVec.ofNat 8 v] <+: bs := by
  obtain ⟨b, rest, rfl, rfl⟩ := field_byte_eq_ok h
  exact byte_cons_prefix rfl List.nil_prefix

/-! ## x-operands (30_encoding.md R105 to R109) -/

/-- A 0-byte that passed is zero. -/
theorem zeroByte_prefix {a b c : Byte} {bs : List Byte} {u : Unit} (h : zeroByte 3 (a :: b :: c :: bs) = .ok u) :
    [0] <+: bs := by
  obtain ⟨z, hz, h⟩ := decode_bind_eq_ok.1 h
  simp only [field_succ, mapError_eq_ok] at hz
  split at h
  case isTrue hzero =>
    subst hzero
    exact field_byte_prefix hz
  case isFalse => contradiction

/-- A 0-byte that passed, then a displacement of four bytes. -/
theorem zeroByte_field_prefix {a b c : Byte} {bs : List Byte} {u : Unit} {d : Nat}
    (hzero : zeroByte 3 (a :: b :: c :: bs) = .ok u) (hd : field 4 1 bs = .ok d) :
    0 :: leBytes 4 (BitVec.ofNat 32 d).toNat <+: bs := by
  obtain ⟨rest, rfl⟩ := zeroByte_prefix hzero
  rw [List.cons_append, field_succ, mapError_eq_ok] at hd
  exact List.cons_prefix_cons.2 ⟨rfl, field_prefix hd (.inl le_rfl)⟩

/-- An x2-byte that passed holds a scale and an index register. -/
theorem x2Byte_eq_ok {a b c : Byte} {bs : List Byte} {x2 : Nat} (h : x2Byte 3 (a :: b :: c :: bs) = .ok x2) :
    x2 < 32 ∧ ∃ rest, bs = BitVec.ofNat 8 x2 :: rest := by
  obtain ⟨y, hy, h⟩ := decode_bind_eq_ok.1 h
  simp only [field_succ, mapError_eq_ok] at hy
  split at h
  case isTrue hhigh =>
    obtain rfl := Except.ok.inj h
    obtain ⟨rest, rfl⟩ := field_byte_prefix hy
    exact ⟨by omega, rest, rfl⟩
  case isFalse => contradiction

/-- An x2-byte is written again from its scale and its index register. -/
theorem x2_eq_scaled {x2 : Nat} (h : x2 < 32) : 8 * (scaleOf (x2 / 8)).val + (regOf x2).val = x2 := by
  rw [scaleOf_val, regOf_val]
  omega

/-- What the patterns that are not reserved have in common (30_encoding.md R109). -/
theorem x1_of_not_reserved {x1 : Nat} (hres : ¬ x1Reserved x1 = true) :
    x1 / 32 % 2 = 0 ∨ x1 / 8 % 2 = 0 ∧ (x1 / 16 % 2 = 0 ∨ x1 / 64 ≠ 1) := by
  simp only [x1Reserved, Bool.and_eq_true, Bool.or_eq_true, beq_iff_eq] at hres
  omega

/-- The x-bytes that decode to a mode are those of the mode. -/
theorem encodeX_prefix {a b x1 : Byte} {bs : List Byte} {m : XMode}
    (h : decodeX 2 x1.toNat (a :: b :: x1 :: bs) = .ok m) : encodeX m <+: x1 :: bs := by
  have hs := scaleOf_val (x1.toNat / 8)
  have hk := regOf_val x1.toNat
  have hsub : x1.toNat / 64 = 0 ∨ x1.toNat / 64 = 1 ∨ x1.toNat / 64 = 2 ∨ x1.toNat / 64 = 3 := by omega
  unfold decodeX at h
  split_ifs at h with hres hindex hbase
  case pos | pos => -- index only, base only
    have hfree := x1_of_not_reserved hres
    rcases hsub with hsub | hsub | hsub | hsub <;>
      simp only [hsub, decode_bind_eq_ok, field_succ, mapError_eq_ok, pure_eq_ok, Except.ok.injEq] at h
    · obtain ⟨_, hzero, rfl⟩ := h
      exact byte_cons_prefix (by omega) (zeroByte_prefix hzero)
    · obtain ⟨d, hd, rfl⟩ := h
      exact byte_cons_prefix (by omega) (field_byte_prefix hd)
    · obtain ⟨d, hd, rfl⟩ := h
      exact byte_cons_prefix (by omega) (field_prefix hd (.inl le_rfl))
    · obtain ⟨_, hzero, d, hd, rfl⟩ := h
      exact byte_cons_prefix (by omega) (zeroByte_field_prefix hzero hd)
  case neg => -- base and index
    have hfree := x1_of_not_reserved hres
    obtain ⟨x2, hx2, h⟩ := decode_bind_eq_ok.1 h
    obtain ⟨hlt, rest, rfl⟩ := x2Byte_eq_ok hx2
    rcases hsub with hsub | hsub | hsub | hsub <;>
      simp only [hsub, decode_bind_eq_ok, field_succ, mapError_eq_ok, pure_eq_ok, Except.ok.injEq] at h
    · subst h
      rw [encodeX, x2_eq_scaled hlt]
      exact byte_cons_prefix (by omega) (List.prefix_append [BitVec.ofNat 8 x2] rest)
    · omega -- submode 01 is reserved
    all_goals
      obtain ⟨d, hd, rfl⟩ := h
      rw [encodeX, x2_eq_scaled hlt]
      exact byte_cons_prefix (by omega) (List.cons_prefix_cons.2 ⟨rfl, field_prefix hd (.inl le_rfl)⟩)

/-! ## q-operands (30_encoding.md R87 to R99) -/

/-- An immediate passes where no address is wanted. -/
theorem immFor_eq_ok {n : Nat} {spec : QSpec} {q q' : QOp n} (h : immFor spec q = .ok q') :
    spec ≠ .address ∧ q = q' := by
  unfold immFor at h
  split at h
  case isTrue => contradiction
  case isFalse hspec => exact ⟨hspec, Except.ok.inj h⟩

/-- An operand that is no immediate is legal for every specifier. -/
theorem QOp.legal_of_not_imm {n : Nat} {q : QOp n} (himm : q.isImm = false) (himm2 : q.isImm2 = false)
    (spec : QSpec) : q.legal spec = true := by
  cases spec <;> simp [QOp.legal, himm, himm2]

/-- An immediate other than imm2 is legal where no address is wanted. -/
theorem QOp.legal_of_not_address {n : Nat} {q : QOp n} (himm2 : q.isImm2 = false) {spec : QSpec}
    (h : spec ≠ .address) : q.legal spec = true := by
  cases spec <;> simp_all [QOp.legal]

/-- The q-bytes that decode to an operand are those of the operand, which is legal. -/
theorem encodeQ_prefix {n : Nat} {spec : QSpec} {op b1 : Byte} {bs : List Byte} {q : QOp n}
    (h : decodeQ n spec (op :: b1 :: bs) b1.toNat = .ok q) :
    q.legal spec = true ∧ encodeQ q (regOf b1.toNat).val <+: b1 :: bs := by
  have hk := regOf_val (b1.toNat / 8)
  have hr := regOf_val b1.toNat
  have hmode : b1.toNat / 64 = 0 ∨ b1.toNat / 64 = 1 ∨ b1.toNat / 64 = 2 ∨ b1.toNat / 64 = 3 := by omega
  unfold decodeQ at h
  rcases hmode with hmode | hmode | hmode | hmode <;>
    simp only [hmode, decode_bind_eq_ok, field_succ, mapError_eq_ok, pure_eq_ok, Except.ok.injEq] at h
  iterate 2
    subst h
    exact ⟨QOp.legal_of_not_imm rfl rfl _, byte_cons_prefix (by omega) List.nil_prefix⟩
  · obtain ⟨d, hd, rfl⟩ := h
    exact ⟨QOp.legal_of_not_imm rfl rfl _,
      byte_cons_prefix (by omega) (field_prefix hd (.inl le_rfl))⟩
  · have hsub : b1.toNat / 8 % 8 = 0 ∨ b1.toNat / 8 % 8 = 1 ∨ b1.toNat / 8 % 8 = 2 ∨ b1.toNat / 8 % 8 = 3 ∨
        b1.toNat / 8 % 8 = 4 ∨ b1.toNat / 8 % 8 = 5 ∨ b1.toNat / 8 % 8 = 6 ∨ b1.toNat / 8 % 8 = 7 := by omega
    rcases hsub with hsub | hsub | hsub | hsub | hsub | hsub | hsub | hsub <;>
      simp only [hsub, decode_bind_eq_ok, mapError_eq_ok, Except.ok.injEq, reduceCtorEq] at h
    case inl =>
      obtain ⟨a, ha, rfl⟩ := h
      exact ⟨QOp.legal_of_not_imm rfl rfl _,
        byte_cons_prefix (by omega) (field_prefix ha (.inl le_rfl))⟩
    iterate 3
      obtain ⟨hspec, rfl⟩ := immFor_eq_ok h
      exact ⟨QOp.legal_of_not_address rfl hspec, byte_cons_prefix (by omega) List.nil_prefix⟩
    · obtain ⟨v, hv, h⟩ := h
      split at h
      case isFalse => contradiction
      case isTrue hsize =>
        obtain ⟨hspec, rfl⟩ := immFor_eq_ok h
        exact ⟨QOp.legal_of_not_address rfl hspec,
          byte_cons_prefix (by omega) (field_prefix hv (.inr hsize))⟩
    · split at h
      case isTrue => contradiction
      case isFalse hvalue =>
        simp only [decode_bind_eq_ok, mapError_eq_ok] at h
        obtain ⟨v, hv, h⟩ := h
        obtain ⟨haddress, rfl⟩ := immFor_eq_ok h
        have hspec : spec = .longValue := by cases spec <;> simp_all
        subst hspec
        exact ⟨rfl, byte_cons_prefix (by omega) (field_prefix hv (.inl le_rfl))⟩
    · obtain ⟨x, hx, m, hm, rfl⟩ := h
      obtain ⟨x1, rest, rfl, rfl⟩ := field_byte_eq_ok hx
      exact ⟨QOp.legal_of_not_imm rfl rfl _,
        byte_cons_prefix (by omega) (encodeX_prefix hm)⟩

/-! ## Conditions, register numbers and m-operands (30_encoding.md R115 to R121) -/

theorem Cond.number_of_ofNumber {n : Nat} {c : Cond} (h : Cond.ofNumber n = some c) : c.number = n := by
  unfold Cond.ofNumber at h
  split at h <;> cases h <;> rfl

theorem GReg.number_ofNumber {n : Nat} (h : n < 32) : (GReg.ofNumber n).number = n := by
  have hfile : n / 8 = 0 ∨ n / 8 = 1 ∨ n / 8 = 2 ∨ n / 8 = 3 := by omega
  have hcode : (RegFile.ofCode (n / 8)).code = n / 8 := by
    rcases hfile with e | e | e | e <;> rw [e] <;> rfl
  rw [GReg.number, GReg.ofNumber, hcode, regOf_val]
  omega

/-- Every order of the fields packs what it reads from a byte into that byte. -/
theorem MrLayout.pack_fields (layout : MrLayout) {b : Nat} (hb : b < 256) :
    layout.nField b < 4 ∧ layout.gField b < 2 ∧ layout.rField b < 32 ∧
      layout.pack (layout.nField b) (layout.gField b) (layout.rField b) = b := by
  cases layout <;> simp only [MrLayout.pack, MrLayout.nField, MrLayout.gField, MrLayout.rField] <;> omega

/-- The m-bytes that decode to an operand are those of the operand, whose register group fits. -/
theorem encodeM_prefix {p : Params} {op b1 : Byte} {bs : List Byte} {g : Nat} (hg : g < 2) {n : SizeCode} {r : GReg}
    {m : MOp} (hb : p.mrLayout.pack n.val g r.number = b1.toNat) (h : decodeM p (op :: b1 :: bs) g n = .ok m) :
    m.groupFits n = true ∧ encodeM p n r m <+: b1 :: bs := by
  unfold decodeM at h
  split at h
  case isTrue hzero =>
    subst hzero
    simp only [decode_bind_eq_ok, field_succ, mapError_eq_ok, pure_eq_ok, Except.ok.injEq] at h
    obtain ⟨a, ha, rfl⟩ := h
    exact ⟨rfl, byte_cons_prefix hb (field_prefix ha (.inl le_rfl))⟩
  case isFalse hone =>
    obtain rfl : g = 1 := by omega
    simp only [decode_bind_eq_ok, field_succ, mapError_eq_ok] at h
    obtain ⟨x, hx, h⟩ := h
    obtain ⟨x1, rest, rfl, rfl⟩ := field_byte_eq_ok hx
    split at h
    case isTrue hmreg =>
      obtain ⟨x2, hx2, hm⟩ := decode_bind_eq_ok.1 h
      obtain ⟨hlt, rest, rfl⟩ := x2Byte_eq_ok hx2
      split at hm
      case isFalse => contradiction
      case isTrue hfits =>
        obtain rfl := Except.ok.inj hm
        rw [encodeM, GReg.number_ofNumber hlt, BitVec.eq_of_toNat_eq hmreg]
        exact ⟨hfits, byte_cons_prefix hb (List.prefix_append _ rest)⟩
    case isFalse =>
      obtain ⟨xm, hxm, hm⟩ := decode_bind_eq_ok.1 h
      obtain rfl := Except.ok.inj hm
      exact ⟨rfl, byte_cons_prefix hb (encodeX_prefix hxm)⟩

/-! ## j-operands (30_encoding.md R120 to R126) -/

/-- The j-bytes that decode to an operand are those of the operand. -/
theorem encodeJ_prefix {op b1 : Byte} {bs : List Byte} {c : Cond} {j : JOp} (hc : c.number = b1.toNat / 16)
    (h : decodeJ (op :: b1 :: bs) b1.toNat = .ok j) : encodeJ c j <+: b1 :: bs := by
  have hk := regOf_val b1.toNat
  unfold decodeJ at h
  split at h
  case isTrue hregister =>
    obtain rfl := Except.ok.inj h
    exact byte_cons_prefix (by omega) List.nil_prefix
  case isFalse =>
    split at h
    case h_6 => contradiction
    all_goals
      simp only [decode_bind_eq_ok, field_succ, mapError_eq_ok, pure_eq_ok, Except.ok.injEq] at h
      obtain ⟨d, hd, rfl⟩ := h
      exact byte_cons_prefix (by omega) (field_prefix hd (.inl le_rfl))

/-! ## The formats (30_encoding.md R85, R112 to R115, R120, R127 to R130) -/

section
variable {op b1 : Byte} {bs : List Byte} {i : Instr}

theorem decodeQR_eq_ok {n : Nat} {spec : QSpec} {mk : QOp n → Reg → Instr}
    (h : decodeQR n spec (op :: b1 :: bs) b1.toNat mk = .ok i) :
    ∃ q r, i = mk q r ∧ q.legal spec = true ∧ encodeQ q r.val <+: b1 :: bs := by
  obtain ⟨q, hq, h⟩ := decode_bind_eq_ok.1 h
  obtain ⟨hlegal, hbytes⟩ := encodeQ_prefix hq
  exact ⟨q, _, (Except.ok.inj h).symm, hlegal, hbytes⟩

theorem decodeQO_eq_ok {n : Nat} {spec : QSpec} {mk : QOp n → Instr}
    (h : decodeQO n spec (op :: b1 :: bs) b1.toNat mk = .ok i) :
    ∃ q, i = mk q ∧ q.legal spec = true ∧ encodeQ q 0 <+: b1 :: bs := by
  unfold decodeQO at h
  split at h
  case isFalse => contradiction
  case isTrue hlow =>
    obtain ⟨q, hq, h⟩ := decode_bind_eq_ok.1 h
    obtain ⟨hlegal, hbytes⟩ := encodeQ_prefix hq
    rw [regOf_val, hlow] at hbytes
    exact ⟨q, (Except.ok.inj h).symm, hlegal, hbytes⟩

theorem decodeQC_eq_ok {n k : Nat} {mk : QOp n → Cond → Instr}
    (h : decodeQC n (8 * k) (op :: b1 :: bs) b1.toNat mk = .ok i) :
    ∃ q c, i = mk q c ∧ (q.legal .address && c.number / 8 == k) = true ∧ encodeQ q (c.number % 8) <+: b1 :: bs := by
  unfold decodeQC at h
  split at h
  case h_1 => contradiction
  case h_2 c hc =>
    obtain ⟨q, hq, h⟩ := decode_bind_eq_ok.1 h
    obtain ⟨hlegal, hbytes⟩ := encodeQ_prefix hq
    have hnumber := Cond.number_of_ofNumber hc
    have hlow : c.number % 8 = (regOf b1.toNat).val := by rw [regOf_val]; omega
    refine ⟨q, c, (Except.ok.inj h).symm, ?_, hlow ▸ hbytes⟩
    rw [hlegal, Bool.true_and, beq_iff_eq]
    omega

theorem decodeIR_eq_ok {mk : Fin 32 → Reg → Instr} (h : decodeIR b1.toNat mk = .ok i) :
    ∃ sc r, i = mk sc r ∧ [BitVec.ofNat 8 (8 * sc.val + r.val)] <+: b1 :: bs := by
  refine ⟨_, _, (Except.ok.inj h).symm, byte_cons_prefix ?_ List.nil_prefix⟩
  rw [regOf_val, Fin.val_ofNat]
  omega

theorem decodeMR_eq_ok {p : Params} {mk : SizeCode → GReg → MOp → Instr}
    (h : decodeMR p (op :: b1 :: bs) b1.toNat mk = .ok i) :
    ∃ n r m, i = mk n r m ∧ (r.groupFits n && m.groupFits n) = true ∧ encodeM p n r m <+: b1 :: bs := by
  unfold decodeMR at h
  split at h
  case isFalse => contradiction
  case isTrue hfits =>
    obtain ⟨m, hm, h⟩ := decode_bind_eq_ok.1 h
    obtain ⟨hn, hg, hr, hpack⟩ := p.mrLayout.pack_fields b1.isLt
    obtain ⟨hm, hbytes⟩ := encodeM_prefix hg (r := GReg.ofNumber (p.mrLayout.rField b1.toNat)) (by
      rw [GReg.number_ofNumber hr, Fin.val_ofNat, Nat.mod_eq_of_lt hn, hpack]) hm
    exact ⟨_, _, m, (Except.ok.inj h).symm, (Bool.and_eq_true _ _).mpr ⟨hfits, hm⟩, hbytes⟩

theorem decodeIJ_eq_ok {mk : Cond → JOp → Instr} (h : decodeIJ (op :: b1 :: bs) b1.toNat mk = .ok i) :
    ∃ c j, i = mk c j ∧ encodeJ c j <+: b1 :: bs := by
  unfold decodeIJ at h
  split at h
  case h_1 => contradiction
  case h_2 c hc =>
    obtain ⟨j, hj, h⟩ := decode_bind_eq_ok.1 h
    exact ⟨c, j, (Except.ok.inj h).symm, encodeJ_prefix (Cond.number_of_ofNumber hc) hj⟩

theorem decodeA3_eq_ok {mk : BitVec 24 → Instr} (h : decodeA3 (op :: b1 :: bs) b1.toNat mk = .ok i) :
    ∃ off, i = mk off ∧ leBytes 3 off.toNat <+: b1 :: bs := by
  simp only [decodeA3, decode_bind_eq_ok, field_succ, mapError_eq_ok] at h
  obtain ⟨v, hv, h⟩ := h
  obtain ⟨hsize, hbytes⟩ := field_eq_ok hv
  have hoff : (BitVec.ofNat 24 (b1.toNat + 256 * v)).toNat = b1.toNat + 256 * v := by
    rw [BitVec.toNat_ofNat]; omega
  have hlow : BitVec.ofNat 8 (b1.toNat + 256 * v) = b1 := BitVec.eq_of_toNat_eq (by rw [BitVec.toNat_ofNat]; omega)
  have hhigh : (b1.toNat + 256 * v) / 256 = v := by omega
  refine ⟨_, (Except.ok.inj h).symm, ?_⟩
  rw [hoff, leBytes, hlow, hhigh]
  exact List.cons_prefix_cons.2 ⟨rfl, hbytes⟩

theorem decodeB1_eq_ok {mk : Byte → Instr} (h : decodeB1 b1.toNat mk = .ok i) :
    ∃ stkc, i = mk stkc ∧ [stkc] <+: b1 :: bs :=
  ⟨_, (Except.ok.inj h).symm, byte_cons_prefix rfl List.nil_prefix⟩

theorem decodeB14_eq_ok {mk : Byte → Long → Instr} (h : decodeB14 (op :: b1 :: bs) b1.toNat mk = .ok i) :
    ∃ stkc bmsk, i = mk stkc bmsk ∧ stkc :: leBytes 4 bmsk.toNat <+: b1 :: bs := by
  simp only [decodeB14, decode_bind_eq_ok, field_succ, mapError_eq_ok] at h
  obtain ⟨k, hk, h⟩ := h
  exact ⟨_, _, (Except.ok.inj h).symm, byte_cons_prefix rfl (field_prefix hk (.inl le_rfl))⟩

theorem decodeN0_eq_ok {j : Instr} (h : decodeN0 b1.toNat j = .ok i) : i = j ∧ [0] <+: b1 :: bs := by
  unfold decodeN0 at h
  split at h
  case isFalse => contradiction
  case isTrue hzero => exact ⟨(Except.ok.inj h).symm, byte_cons_prefix hzero.symm List.nil_prefix⟩

theorem decodeN04_eq_ok {mk : Long → Instr} (h : decodeN04 (op :: b1 :: bs) b1.toNat mk = .ok i) :
    ∃ bmsk, i = mk bmsk ∧ 0 :: leBytes 4 bmsk.toNat <+: b1 :: bs := by
  unfold decodeN04 at h
  split at h
  case isFalse => contradiction
  case isTrue hzero =>
    simp only [decode_bind_eq_ok, field_succ, mapError_eq_ok] at h
    obtain ⟨k, hk, h⟩ := h
    exact ⟨_, (Except.ok.inj h).symm, byte_cons_prefix hzero.symm (field_prefix hk (.inl le_rfl))⟩

end

/-- What decodes under a mnemonic is a well-formed instruction of it, and its bytes are those the encoder writes. -/
theorem decodeOperands_eq_ok {p : Params} {m : Mnemonic} {op b1 : Byte} {bs : List Byte} {i : Instr}
    (h : decodeOperands p (op :: b1 :: bs) b1.toNat m = .ok i) :
    i.wellFormed = true ∧ i.mnemonic = m ∧ encodeOperands p i <+: b1 :: bs := by
  cases m with
  | call | jump =>
    obtain ⟨c, j, rfl, hbytes⟩ := decodeIJ_eq_ok h
    exact ⟨rfl, rfl, hbytes⟩
  | callb | callf | jumpb | jumpf =>
    obtain ⟨off, rfl, hbytes⟩ := decodeA3_eq_ok h
    exact ⟨rfl, rfl, hbytes⟩
  | enter | leave | ret =>
    obtain ⟨stkc, rfl, hbytes⟩ := decodeB1_eq_ok h
    exact ⟨rfl, rfl, hbytes⟩
  | entersav | leaveres =>
    obtain ⟨stkc, bmsk, rfl, hbytes⟩ := decodeB14_eq_ok h
    exact ⟨rfl, rfl, hbytes⟩
  | pushregs | popregs =>
    obtain ⟨bmsk, rfl, hbytes⟩ := decodeN04_eq_ok h
    exact ⟨rfl, rfl, hbytes⟩
  | halt | nop =>
    obtain ⟨rfl, hbytes⟩ := decodeN0_eq_ok h
    exact ⟨rfl, rfl, hbytes⟩
  | gmov | gsto =>
    obtain ⟨n, r, m, rfl, hfits, hbytes⟩ := decodeMR_eq_ok h
    exact ⟨hfits, rfl, hbytes⟩
  | sliw | slil | srliw | srlil | sraiw | srail | rliw | rlil | rriw | rril =>
    obtain ⟨sc, r, rfl, hbytes⟩ := decodeIR_eq_ok h
    exact ⟨rfl, rfl, hbytes⟩
  | set0w | set0l =>
    obtain ⟨q, c, rfl, hlegal, hbytes⟩ := decodeQC_eq_ok (k := 0) h
    exact ⟨hlegal, rfl, hbytes⟩
  | set1w | set1l =>
    obtain ⟨q, c, rfl, hlegal, hbytes⟩ := decodeQC_eq_ok (k := 1) h
    exact ⟨hlegal, rfl, hbytes⟩
  | movflags | stoflags | pushw | pushl | pushf | pushd | popw | popl | popf | popd =>
    obtain ⟨q, rfl, hlegal, hbytes⟩ := decodeQO_eq_ok h
    exact ⟨hlegal, rfl, hbytes⟩
  | _ =>
    obtain ⟨q, r, rfl, hlegal, hbytes⟩ := decodeQR_eq_ok h
    exact ⟨hlegal, rfl, hbytes⟩

/-! ## The opcode -/

theorem Mnemonic.nodup_all : Mnemonic.all.Nodup := by
  have hindex : Mnemonic.all.map Mnemonic.ctorIdx = List.range 144 := rfl
  exact List.Nodup.of_map _ (hindex ▸ List.nodup_range)

/-- A legal opcode map gives a mnemonic the byte that names it (00_scope.md R6, 30_encoding.md R131). -/
theorem Params.opcodeOf_of_mnemonicOf {p : Params} (hkeys : p.opcodeMap.map Prod.fst = Mnemonic.all) {op : Byte}
    {m : Mnemonic} (h : p.mnemonicOf op = some m) : p.opcodeOf m = op := by
  obtain ⟨e, he, rfl⟩ := Option.map_eq_some_iff.1 h
  have hop : e.2 = op := eq_of_beq (List.find?_some (p := fun c : Mnemonic × Byte => c.2 == op) he)
  have hmem := List.mem_of_find?_eq_some he
  obtain ⟨d, hd, hfind, hkey⟩ := exists_find? (f := fun c => c.1 == e.1) hmem (beq_self_eq_true _)
  have hnodup : (p.opcodeMap.map Prod.fst).Nodup := hkeys ▸ Mnemonic.nodup_all
  have hde : d = e := List.inj_on_of_nodup_map hnodup hd hmem (eq_of_beq hkey)
  simp [Params.opcodeOf, hfind, hde, hop]

/-! ## Whole instructions -/

/-- Under legal parameters, what decodes is well-formed and its encoding is in front of the bytes. -/
theorem encode_prefix {p : Params} {bs : List Byte} {i : Instr} (hp : p.wf = true) (h : decode p bs = .ok i) :
    i.wellFormed = true ∧ encode p i <+: bs := by
  obtain ⟨hkeys, -, -⟩ := Params.wf_encoding hp
  obtain ⟨v, hv, h⟩ := decode_bind_eq_ok.1 h
  obtain ⟨op, tail, rfl, rfl⟩ := field_byte_eq_ok hv
  rw [ofNat_eq_byte rfl] at h
  split at h
  case h_1 => contradiction
  case h_2 m hm =>
    simp only [decode_bind_eq_ok, field_succ, mapError_eq_ok] at h
    obtain ⟨v, hv, h⟩ := h
    obtain ⟨b1, rest, rfl, rfl⟩ := field_byte_eq_ok hv
    obtain ⟨hwf, rfl, hbytes⟩ := decodeOperands_eq_ok h
    exact ⟨hwf, List.cons_prefix_cons.2 ⟨Params.opcodeOf_of_mnemonicOf hkeys hm, hbytes⟩⟩

/-- Settles O2: the encoding is in front of the bytes, and as long as the instruction. -/
theorem decodedBytesAreTheEncoding : Obligations.DecodedBytesAreTheEncoding := by
  intro p bs i hp h
  obtain ⟨hwf, hbytes⟩ := encode_prefix hp h
  obtain ⟨hlength, -⟩ := encodingLength i
  exact ⟨hwf, by rw [← hlength p]; exact (List.prefix_iff_eq_take.1 hbytes).symm⟩

end Sys2Proof
end

section
/-! PROOFS. What is refused (30_encoding.md R132, R133). Nothing after the opcode byte names an opcode in its refusal, so
that error says that the map names no instruction. Each reserved pattern is refused by the part of the decoder that reads
its field, and every part before it has succeeded. -/

namespace Sys2Proof

/-! ## Unassigned opcodes (30_encoding.md R132) -/

/-- What a part of the decoder answers is not the refusal of an opcode. -/
def NamesNoOpcode {α : Type} (x : Except DecodeError α) : Prop := ∀ op, x ≠ .error (.illegalOpcode op)

namespace NamesNoOpcode
variable {α β : Type} (bs : List Byte)

theorem ok (a : α) : NamesNoOpcode (.ok a) := nofun

theorem reserved : NamesNoOpcode (.error .reserved : Except DecodeError α) := nofun

theorem bind {x : Except DecodeError α} {f : α → Except DecodeError β} (hx : NamesNoOpcode x)
    (hf : ∀ a, NamesNoOpcode (f a)) : NamesNoOpcode (x >>= f) := by
  cases x with
  | ok a => exact hf a
  | error e =>
    intro op he
    exact hx op (congrArg _ (Except.error.inj he))

theorem ite {c : Prop} [Decidable c] {x y : Except DecodeError α} (hx : NamesNoOpcode x) (hy : NamesNoOpcode y) :
    NamesNoOpcode (if c then x else y) := by
  split
  · exact hx
  · exact hy

theorem field (n off : Nat) : NamesNoOpcode (field n off bs) := .ite (.ok _) nofun

theorem zeroByte (off : Nat) : NamesNoOpcode (zeroByte off bs) := .bind (.field bs _ _) fun _ => .ite (.ok _) .reserved

theorem x2Byte (off : Nat) : NamesNoOpcode (x2Byte off bs) := .bind (.field bs _ _) fun _ => .ite (.ok _) .reserved

/-- A field, then an operand made of it. -/
theorem fieldThen (n off : Nat) (f : Nat → α) :
    NamesNoOpcode (do let d ← Sys2Proof.field n off bs; return f d) :=
  .bind (.field bs n off) fun _ => .ok _

theorem decodeX (off x1 : Nat) : NamesNoOpcode (decodeX off x1 bs) := by
  refine .ite .reserved (.ite ?index (.ite ?base ?baseIndex))
  case index | base =>
    split
    · exact .bind (.zeroByte bs _) fun _ => .ok _
    · exact .fieldThen bs _ _ _
    · exact .fieldThen bs _ _ _
    · exact .bind (.zeroByte bs _) fun _ => .fieldThen bs _ _ _
  case baseIndex =>
    refine .bind (.x2Byte bs _) fun x2 => ?_
    split
    · exact .ok _
    · exact .fieldThen bs _ _ _
    · exact .fieldThen bs _ _ _

theorem immFor {n : Nat} (spec : QSpec) (q : QOp n) : NamesNoOpcode (immFor spec q) := .ite .reserved (.ok _)

theorem decodeQ (n : Nat) (spec : QSpec) (b1 : Nat) : NamesNoOpcode (decodeQ n spec bs b1) := by
  unfold Sys2Proof.decodeQ
  split
  · exact .ok _
  · exact .ok _
  · exact .fieldThen bs _ _ _
  · split
    · exact .fieldThen bs _ _ _
    · exact .immFor _ _
    · exact .immFor _ _
    · exact .immFor _ _
    · exact .bind (.field bs _ _) fun _ => .ite (.immFor _ _) .reserved
    · exact .ite .reserved (.bind (.field bs _ _) fun _ => .immFor _ _)
    · exact .reserved
    · exact .bind (.field bs _ _) fun _ => .bind (.decodeX bs _ _) fun _ => .ok _

theorem decodeM (p : Params) (g : Nat) (n : SizeCode) : NamesNoOpcode (decodeM p bs g n) :=
  .ite (.fieldThen bs _ _ _) (.bind (.field bs _ _) fun _ =>
    .ite (.bind (.x2Byte bs _) fun _ => .ite (.ok _) .reserved) (.bind (.decodeX bs _ _) fun _ => .ok _))

theorem decodeJ (b1 : Nat) : NamesNoOpcode (decodeJ bs b1) := by
  refine .ite (.ok _) ?_
  split
  case h_6 => exact .reserved
  all_goals exact .fieldThen bs _ _ _

theorem decodeIJ (b1 : Nat) (mk : Cond → JOp → Instr) : NamesNoOpcode (decodeIJ bs b1 mk) := by
  unfold Sys2Proof.decodeIJ
  split
  · exact .reserved
  · exact .bind (.decodeJ bs _) fun _ => .ok _

theorem decodeQC (n high b1 : Nat) (mk : QOp n → Cond → Instr) : NamesNoOpcode (decodeQC n high bs b1 mk) := by
  unfold Sys2Proof.decodeQC
  split
  · exact .reserved
  · exact .bind (.decodeQ bs _ _ _) fun _ => .ok _

/-- No format names an opcode in its refusal. -/
theorem decodeOperands (p : Params) (b1 : Nat) (m : Mnemonic) : NamesNoOpcode (decodeOperands p bs b1 m) := by
  cases m with
  | call | jump => exact .decodeIJ bs _ _
  | callb | callf | jumpb | jumpf => exact .fieldThen bs _ _ _
  | enter | leave | ret => exact .ok _
  | entersav | leaveres => exact .fieldThen bs _ _ _
  | pushregs | popregs => exact .ite (.fieldThen bs _ _ _) .reserved
  | halt | nop => exact .ite (.ok _) .reserved
  | gmov | gsto => exact .ite (.bind (.decodeM bs _ _ _) fun _ => .ok _) .reserved
  | sliw | slil | srliw | srlil | sraiw | srail | rliw | rlil | rriw | rril => exact .ok _
  | set0w | set0l | set1w | set1l => exact .decodeQC bs _ _ _ _
  | movflags | stoflags | pushw | pushl | pushf | pushd | popw | popl | popf | popd =>
    exact .ite (.bind (.decodeQ bs _ _ _) fun _ => .ok _) .reserved
  | _ => exact .bind (.decodeQ bs _ _ _) fun _ => .ok _

end NamesNoOpcode

/-- What follows a byte that names an instruction is read by that instruction's format. -/
theorem decode_of_mnemonicOf {p : Params} {op : Byte} {m : Mnemonic} (hm : p.mnemonicOf op = some m) (b : Byte)
    (rest : List Byte) : decode p (op :: b :: rest) = decodeOperands p (op :: b :: rest) b.toNat m := by
  rw [decode, field_byte, ok_bind, ofNat_eq_byte rfl, hm]
  simp only [field_succ, field_byte, mapError_ok, ok_bind]

/-- The refusal of an opcode says that the map names no instruction by it. -/
theorem decode_eq_illegalOpcode_iff {p : Params} {op : Byte} {rest : List Byte} :
    decode p (op :: rest) = .error (.illegalOpcode op) ↔ p.mnemonicOf op = none := by
  rw [decode, field_byte, ok_bind, ofNat_eq_byte rfl]
  cases p.mnemonicOf op with
  | none => exact iff_of_true rfl rfl
  | some m =>
    have hpast := NamesNoOpcode.bind (.field (op :: rest) 1 1) fun b1 => .decodeOperands (op :: rest) p b1 m
    exact iff_of_false (hpast op) nofun

/-- The default map names an instruction by each of the bytes 1 to 144 (30_encoding.md R131). -/
theorem mnemonicOf_default_eq_none_iff (op : Byte) :
    defaultParams.mnemonicOf op = none ↔ op.toNat = 0 ∨ 0x91 ≤ op.toNat := by
  have hlength : Mnemonic.all.length = 144 := rfl
  rw [Params.mnemonicOf, Option.map_eq_none_iff, List.find?_eq_none]
  constructor
  · intro h
    by_contra hassigned
    have hindex : op.toNat - 1 < Mnemonic.all.length := by omega
    refine h _ (List.mem_map.2 ⟨(Mnemonic.all[op.toNat - 1], op.toNat - 1), ?_, rfl⟩) ?_
    · exact List.mk_mem_zipIdx_iff_getElem?.2 (List.getElem?_eq_getElem hindex)
    · exact beq_iff_eq.2 (ofNat_eq_byte (by omega))
  · rintro hop _ he hbyte
    obtain ⟨⟨m, k⟩, hmem, rfl⟩ := List.mem_map.1 he
    have hk : k < Mnemonic.all.length :=
      (List.getElem?_eq_some_iff.1 (List.mk_mem_zipIdx_iff_getElem?.1 hmem)).1
    have hnumber : (BitVec.ofNat 8 (k + 1)).toNat = op.toNat := congrArg _ (eq_of_beq hbyte)
    rw [BitVec.toNat_ofNat] at hnumber
    omega

/-! ## Reserved patterns (30_encoding.md R133) -/

/-- A part of the decoder that is refused ends the decoding. -/
theorem error_bind {α β : Type} (e : DecodeError) (f : α → Except DecodeError β) : Except.error e >>= f = .error e := rfl

section
variable {op b c d : Byte} {rest : List Byte}

/-- A 0-byte that is not zero is refused (R104, R109). -/
theorem zeroByte_of_ne_zero (hd : d ≠ 0) : zeroByte 3 (op :: b :: c :: d :: rest) = .error .reserved := by
  have hvalue : ¬ d.toNat = 0 := BitVec.toNat_ne.1 hd
  simp only [zeroByte, field_succ, field_byte, mapError_ok, ok_bind, if_neg hvalue]

/-- An x2-byte with one of its bits 7:5 set is refused (R107, R109). -/
theorem x2Byte_of_le (hd : 32 ≤ d.toNat) : x2Byte 3 (op :: b :: c :: d :: rest) = .error .reserved := by
  have hhigh : ¬ d.toNat / 32 = 0 := by omega
  simp only [x2Byte, field_succ, field_byte, mapError_ok, ok_bind, if_neg hhigh]

/-- The unused x1-bytes (R109). -/
theorem x1Reserved_of {x1 : Nat} (hbase : x1 / 32 % 2 = 1) (h : x1 / 8 % 2 = 1 ∨ x1 / 16 % 2 = 1 ∧ x1 / 64 = 1) :
    x1Reserved x1 = true := by
  simpa [x1Reserved, hbase] using h

/-- The mode i needs its 0-byte (R104). -/
theorem decodeX_index_of_ne_zero (hc : c.toNat / 32 = 0) (hd : d ≠ 0) :
    decodeX 2 c.toNat (op :: b :: c :: d :: rest) = .error .reserved := by
  obtain ⟨hres, hindex, hsub, -⟩ :=
    x1_indexed (x1 := c.toNat) (c := 0) (s := scaleOf (c.toNat / 8)) (k := regOf c.toNat) (by
      rw [scaleOf_val, regOf_val]; omega)
  simp [decodeX, hres, hindex, hsub, zeroByte_of_ne_zero hd, error_bind]

/-- The mode bi needs its x2-byte (R107). -/
theorem decodeX_baseIndex_of_le (hc : c.toNat / 8 = 6) (hd : 32 ≤ d.toNat) :
    decodeX 2 c.toNat (op :: b :: c :: d :: rest) = .error .reserved := by
  obtain ⟨hres, hindex, hbase, -⟩ := x1_basedIndexed (x1 := c.toNat) (c := 0) (k := regOf c.toNat) (by
    rw [regOf_val]; omega) (by decide)
  simp [decodeX, hres, hindex, hbase, x2Byte_of_le hd, error_bind]

/-- The q-field 11110 is unused (R87). -/
theorem decodeQ_unused (hb : b.toNat / 8 = 30) (n : Nat) (spec : QSpec) (bs : List Byte) :
    decodeQ n spec bs b.toNat = .error .reserved := by
  have hmode : b.toNat / 64 = 3 := by omega
  have hsub : b.toNat / 8 % 8 = 6 := by omega
  simp only [decodeQ, hmode, hsub]

/-- imm2 stands for no value but a long (R95). -/
theorem decodeQ_imm2_value (hb : b.toNat / 8 = 29) (n : Nat) (bs : List Byte) :
    decodeQ n .value bs b.toNat = .error .reserved := by
  have hmode : b.toNat / 64 = 3 := by omega
  have hsub : b.toNat / 8 % 8 = 5 := by omega
  simp only [decodeQ, hmode, hsub, if_true]

/-- imm_1, imm0 and imm1 are no addresses (R97). -/
theorem decodeQ_imm_address (hb : 25 ≤ b.toNat / 8 ∧ b.toNat / 8 ≤ 27) (n : Nat) (bs : List Byte) :
    decodeQ n .address bs b.toNat = .error .reserved := by
  have hmode : b.toNat / 64 = 3 := by omega
  have hsub : b.toNat / 8 % 8 = 1 ∨ b.toNat / 8 % 8 = 2 ∨ b.toNat / 8 % 8 = 3 := by omega
  rcases hsub with hsub | hsub | hsub <;> simp only [decodeQ, hmode, hsub, immFor, if_true]

/-- The high byte of a byte immediate is zero (R98). -/
theorem decodeQ_byteImm_of_ne_zero (hb : b.toNat / 8 = 28) (hc : c ≠ 0) (spec : QSpec) (lo : Byte) :
    decodeQ 8 spec (op :: b :: lo :: c :: rest) b.toNat = .error .reserved := by
  have hmode : b.toNat / 64 = 3 := by omega
  have hsub : b.toNat / 8 % 8 = 4 := by omega
  have hvalue : c.toNat ≠ 0 := BitVec.toNat_ne.1 hc
  have hfield : field (immBytes 8) 2 (op :: b :: lo :: c :: rest) = .ok (lo.toNat + 256 * c.toNat) := by
    simp [field, immBytes, leNat]
  have hlarge : ¬ lo.toNat + 256 * c.toNat < 2 ^ 8 := by omega
  simp only [decodeQ, hmode, hsub, hfield, ok_bind, if_neg hlarge]

/-- Where the q-field is 11111, the operand is refused where its x-bytes are (R99). -/
theorem decodeQ_of_decodeX (hb : b.toNat / 8 = 31) {e : DecodeError}
    (h : decodeX 2 c.toNat (op :: b :: c :: rest) = .error e) (n : Nat) (spec : QSpec) :
    decodeQ n spec (op :: b :: c :: rest) b.toNat = .error e := by
  have hmode : b.toNat / 64 = 3 := by omega
  have hsub : b.toNat / 8 % 8 = 7 := by omega
  simp only [decodeQ, hmode, hsub, field_succ, field_byte, mapError_ok, ok_bind, h, error_bind]

/-- A qr instruction is refused where its q-operand is. -/
theorem decodeQR_of_decodeQ {n : Nat} {spec : QSpec} {bs : List Byte} {b1 : Nat} {e : DecodeError}
    (h : decodeQ n spec bs b1 = .error e) (mk : QOp n → Reg → Instr) : decodeQR n spec bs b1 mk = .error e := by
  rw [decodeQR, h, error_bind]

/-- The condition numbers 11 to 15 are reserved (R121). -/
theorem Cond.ofNumber_eq_none {n : Nat} (h : 11 ≤ n) : Cond.ofNumber n = none := by
  by_contra hsome
  obtain ⟨c, hc⟩ := Option.ne_none_iff_exists'.1 hsome
  have hlt := c.number_lt
  rw [Cond.number_of_ofNumber hc] at hlt
  omega

/-- The j-fields 1101 to 1111 are reserved, whatever the condition (R122). -/
theorem decodeIJ_of_le {b1 : Nat} (hb : 13 ≤ b1 % 16) (bs : List Byte) (mk : Cond → JOp → Instr) :
    decodeIJ bs b1 mk = .error .reserved := by
  have hj : decodeJ bs b1 = .error .reserved := by
    have hfield : b1 % 16 = 13 ∨ b1 % 16 = 14 ∨ b1 % 16 = 15 := by omega
    rcases hfield with hfield | hfield | hfield <;> simp [decodeJ, hfield]
  unfold decodeIJ
  split
  · rfl
  · rw [hj, error_bind]

/-- Eight bytes from w5 on leave the word registers (40_data_movement.md R148). -/
theorem not_groupFits_of_lt : ∀ idx : Reg, 4 < idx.val → ¬ (GReg.mk .w idx).groupFits 3 = true := by decide

/-- With the g-field 1, an unused x1-byte other than the mreg pattern is refused (R109, R118), as a register group that
does not fit is before it. -/
theorem decodeMR_of_x1Reserved {p : Params} (hg : p.mrLayout.gField b.toNat ≠ 0) (hmreg : c ≠ p.mregX1)
    (hx1 : x1Reserved c.toNat = true) (mk : SizeCode → GReg → MOp → Instr) :
    decodeMR p (op :: b :: c :: rest) b.toNat mk = .error .reserved := by
  have hne : ¬ c.toNat = p.mregX1.toNat := BitVec.toNat_ne.1 hmreg
  unfold decodeMR
  split
  · simp only [decodeM, if_neg hg, field_succ, field_byte, mapError_ok, ok_bind, if_neg hne, decodeX_reserved hx1,
      error_bind]
  · rfl

end

/-- Settles O4: each reserved pattern by the lemma about the part of the decoder that reads it. -/
theorem unassignedAndReservedPatternsAreRefused : Obligations.UnassignedAndReservedPatternsAreRefused := by
  refine ⟨fun op rest => decode_eq_illegalOpcode_iff.trans (mnemonicOf_default_eq_none_iff op), fun b c rest => ?_⟩
  have movw (bs : List Byte) (h : decodeQ 16 .value (0x44 :: b :: bs) b.toNat = .error .reserved) :
      decode defaultParams (0x44 :: b :: bs) = .error .reserved :=
    (decode_of_mnemonicOf (m := .movw) rfl b bs).trans (decodeQR_of_decodeQ h _)
  refine ⟨fun hb => movw _ (decodeQ_unused hb _ _ _), fun hb => movw _ (decodeQ_imm2_value hb _ _),
    fun hb => ?address, fun ⟨hb, hc⟩ lo => ?byteImm, fun ⟨hb, hbase, hbit3⟩ => ?x1Bit3, fun ⟨hb, hc⟩ => ?x1Submode,
    fun ⟨hb, hc⟩ d hd => movw _ (decodeQ_of_decodeX hb (decodeX_index_of_ne_zero hc hd) _ _),
    fun ⟨hb, hc⟩ d hd => movw _ (decodeQ_of_decodeX hb (decodeX_baseIndex_of_le hc hd) _ _),
    fun hb => ?jumpCond, fun hb => ?setCond, fun hb => ?jField, fun hb => ?rField, fun hb => ?n0, fun hb => ?n04,
    fun ⟨hg, hlow, hhigh⟩ => ?mreg, fun ⟨hn, hfile, hidx⟩ => ?group⟩
  case address =>
    exact (decode_of_mnemonicOf (m := .stow) rfl b rest).trans (decodeQR_of_decodeQ (decodeQ_imm_address hb _ _) _)
  case byteImm =>
    exact (decode_of_mnemonicOf (m := .movbw) rfl b (lo :: c :: rest)).trans
      (decodeQR_of_decodeQ (decodeQ_byteImm_of_ne_zero hb hc _ lo) _)
  case x1Bit3 => exact movw _ (decodeQ_of_decodeX hb (decodeX_reserved (x1Reserved_of hbase (.inl hbit3)) _ _) _ _)
  case x1Submode =>
    have hx1 : x1Reserved c.toNat = true := x1Reserved_of (by omega) (.inr (by omega))
    exact movw _ (decodeQ_of_decodeX hb (decodeX_reserved hx1 _ _) _ _)
  case jumpCond =>
    rw [decode_of_mnemonicOf (m := .jump) rfl, decodeOperands, decodeIJ, Cond.ofNumber_eq_none hb]
  case setCond =>
    rw [decode_of_mnemonicOf (m := .set1w) rfl, decodeOperands, decodeQC, Cond.ofNumber_eq_none (by omega)]
  case jField => exact (decode_of_mnemonicOf (m := .jump) rfl b rest).trans (decodeIJ_of_le hb _ _)
  case rField => exact (decode_of_mnemonicOf (m := .pushw) rfl b rest).trans (if_neg hb)
  case n0 => exact (decode_of_mnemonicOf (m := .nop) rfl b rest).trans (if_neg (BitVec.toNat_ne.1 hb))
  case n04 => exact (decode_of_mnemonicOf (m := .pushregs) rfl b rest).trans (if_neg (BitVec.toNat_ne.1 hb))
  case mreg =>
    have hne : c ≠ 0x70 := by rintro rfl; contradiction
    have hgField : defaultParams.mrLayout.gField b.toNat ≠ 0 := by
      change b.toNat / 32 % 2 ≠ 0
      omega
    have hx1 : x1Reserved c.toNat = true := x1Reserved_of (by omega) (.inr (by omega))
    exact (decode_of_mnemonicOf (m := .gmov) rfl b (c :: rest)).trans (decodeMR_of_x1Reserved hgField hne hx1 _)
  case group =>
    have hunfit : ¬ (GReg.ofNumber (b.toNat % 32)).groupFits (Fin.ofNat 4 (b.toNat / 64)) = true := by
      rw [GReg.ofNumber, hfile, hn]
      exact not_groupFits_of_lt _ (by rw [regOf_val]; omega)
    exact (decode_of_mnemonicOf (m := .gmov) rfl b rest).trans (if_neg hunfit)

end Sys2Proof
end

section
/-! PROOFS. The results and frames of the instructions that write one register or flags (40_data_movement.md,
41_add_sub_mul.md, 42_divide_other_arith.md R239 to R243, 43_shift_logical.md R282 to R289, 44_convert_compare.md R302 to
R307). Such an instruction reads its operand, writes a function of it and goes on to the next instruction; what is left
to prove of each is that the function is the number the spec gives. -/

namespace Sys2Proof.Machine

/-! ## Sums, differences, signs and bytes of bit patterns -/

section
variable {n m : Nat}

/-- A difference is taken modulo 2^n, whichever integers the patterns stand for. -/
theorem sub_eq_ofInt {x y : BitVec n} {i j : Int} (hx : x = BitVec.ofInt n i) (hy : y = BitVec.ofInt n j) :
    x - y = BitVec.ofInt n (i - j) := by
  rw [hx, hy, Int.sub_eq_add_neg, BitVec.ofInt_add, BitVec.ofInt_neg, BitVec.sub_eq_add_neg]

theorem sub_eq_ofInt_toInt (x y : BitVec n) : x - y = BitVec.ofInt n (x.toInt - y.toInt) :=
  sub_eq_ofInt BitVec.ofInt_toInt.symm BitVec.ofInt_toInt.symm

theorem zero_sub_eq_ofInt (x : BitVec n) : 0 - x = BitVec.ofInt n (-x.toInt) := by
  rw [BitVec.ofInt_neg, BitVec.ofInt_toInt]
  exact BitVec.zero_sub x

/-- The absolute value of the least number is its own pattern (42_divide_other_arith.md R240). -/
theorem abs_eq_ofInt_natAbs (x : BitVec n) :
    (if x.slt 0 then 0 - x else x) = BitVec.ofInt n x.toInt.natAbs := by
  have hneg : x.slt 0 = true ↔ x.toInt < 0 := by
    rw [BitVec.slt_iff_toInt_lt]
    simp
  split
  · next h => rw [Int.ofNat_natAbs_of_nonpos (hneg.1 h).le, zero_sub_eq_ofInt]
  · next h => rw [Int.natAbs_of_nonneg (not_lt.1 (mt hneg.2 h)), BitVec.ofInt_toInt]

theorem add_setWidth_eq_ofNat (x : BitVec n) (v : BitVec m) :
    x + v.setWidth n = BitVec.ofNat n (x.toNat + v.toNat) := by
  rw [BitVec.ofNat_add, BitVec.ofNat_toNat, BitVec.ofNat_toNat, BitVec.setWidth_eq]

theorem add_signExtend_eq_ofInt (x : BitVec n) (v : BitVec m) :
    x + v.signExtend n = BitVec.ofInt n (x.toInt + v.toInt) := by
  rw [BitVec.ofInt_add, BitVec.ofInt_toInt]
  rfl

theorem sub_setWidth_eq_ofInt (x : BitVec n) (v : BitVec m) :
    x - v.setWidth n = BitVec.ofInt n (x.toNat - v.toNat) := by
  refine sub_eq_ofInt ?_ ?_
  · rw [BitVec.ofInt_natCast, BitVec.ofNat_toNat, BitVec.setWidth_eq]
  · rw [BitVec.ofInt_natCast, BitVec.ofNat_toNat]

theorem sub_signExtend_eq_ofInt (x : BitVec n) (v : BitVec m) :
    x - v.signExtend n = BitVec.ofInt n (x.toInt - v.toInt) :=
  sub_eq_ofInt BitVec.ofInt_toInt.symm rfl

/-- The low bits of a pattern replaced, the others kept (00_scope.md R11). -/
theorem replaceLow_eq_ofNat (x : BitVec n) (v : BitVec m) :
    (x &&& BitVec.allOnes n <<< m) ||| v.setWidth n = BitVec.ofNat n (x.toNat / 2 ^ m * 2 ^ m + v.toNat) := by
  refine BitVec.eq_of_getLsbD_eq fun i hi => ?_
  rw [Nat.mul_comm, BitVec.getLsbD_ofNat, Nat.testBit_two_pow_mul_add _ v.isLt]
  split
  · next h => simp [hi, h, BitVec.getLsbD]
  · next h =>
    have hle : m ≤ i := not_lt.1 h
    have hlt : i - m < n := by omega
    have hv : v.toNat.testBit i = false := BitVec.getLsbD_of_ge v i hle
    simp [hi, hv, hle, hlt, BitVec.getLsbD, Nat.testBit_div_two_pow]

end

theorem setLobW_eq_ofNat (x : Word) (b : Byte) : setLobW x b = BitVec.ofNat 16 (x.toNat / 256 * 256 + b.toNat) :=
  replaceLow_eq_ofNat x b

theorem setLobL_eq_ofNat (x : Long) (b : Byte) : setLobL x b = BitVec.ofNat 32 (x.toNat / 256 * 256 + b.toNat) :=
  replaceLow_eq_ofNat x b

theorem setLow_eq_ofNat (x : Long) (v : Word) : setLow x v = BitVec.ofNat 32 (x.toNat / 65536 * 65536 + v.toNat) :=
  replaceLow_eq_ofNat x v

/-- The mask of movflags keeps the bits 4:0 (40_data_movement.md R160). -/
theorem flagBits_eq_ofNat (v : Word) : flagBits v = BitVec.ofNat 16 (v.toNat % 32) := by
  apply BitVec.eq_of_toNat_eq
  have hmask : v.toNat &&& 31 = v.toNat % 32 := Nat.and_two_pow_sub_one_eq_mod v.toNat 5
  have hlt := v.isLt
  rw [flagBits, BitVec.toNat_and, BitVec.toNat_ofNat, Nat.mod_eq_of_lt (by omega)]
  exact hmask

/-! ## Instructions that read one operand and write one register -/

section
variable {α : Type} {x : Except Fault α} {v : α} (hx : x = .ok v) {s : State} {len : Nat} {r : Reg}
include hx

theorem complete_setW_of_read {f : α → Word} {y : Word} (hy : f v = y) :
    complete s len (do let a ← x; return s.setW r (f a)) = wordResult s len r y := by
  subst hx hy
  rfl

theorem complete_setL_of_read {f : α → Long} {y : Long} (hy : f v = y) :
    complete s len (do let a ← x; return s.setL r (f a)) = longResult s len r y := by
  subst hx hy
  rfl

theorem complete_setF_of_read {f : α → Long} {y : Long} (hy : f v = y) :
    complete s len (do let a ← x; return s.setF r (f a)) = floatResult s len r y := by
  subst hx hy
  rfl

theorem complete_setD_of_read {f : α → Quad} {y : Quad} (hy : f v = y) :
    complete s len (do let a ← x; return s.setD r (f a)) = doubleResult s len r y := by
  subst hx hy
  rfl

theorem complete_setFlags_of_read {f : α → Word} {y : Word} (hy : f v = y) :
    complete s len (do let a ← x; return s.setFlags (f a)) = flagsResult s len y := by
  subst hx hy
  rfl

end

/-- Settles O21: what the model writes and what the spec gives are the same number modulo 2^16 or 2^32. -/
theorem wordAndLongRegisterResults : Obligations.WordAndLongRegisterResults := by
  refine ⟨fun q r s v hq => ?word, fun q r s v hq => ?long⟩
  case word =>
    have result {f : Word → Word} {y : Word} := complete_setW_of_read hq (s := s) (len := 2 + q.extraBytes) (r := r)
      (f := f) (y := y)
    exact ⟨result rfl, result (BitVec.add_def _ _), result (sub_eq_ofInt_toInt _ _), result (zero_sub_eq_ofInt _),
      result rfl, result rfl, result (abs_eq_ofInt_natAbs _), result rfl, result rfl, result rfl,
      result (BitVec.allOnes_sub_eq_not _).symm⟩
  case long =>
    have result {f : Long → Long} {y : Long} := complete_setL_of_read hq (s := s) (len := 2 + q.extraBytes) (r := r)
      (f := f) (y := y)
    exact ⟨result rfl, result (BitVec.add_def _ _), result (sub_eq_ofInt_toInt _ _), result (zero_sub_eq_ofInt _),
      result rfl, result rfl, result (abs_eq_ofInt_natAbs _), result rfl, result rfl, result rfl,
      result (BitVec.allOnes_sub_eq_not _).symm⟩

/-- Settles O23: a move replaces low bits, every other instruction extends the operand first. -/
theorem narrowOperandResults : Obligations.NarrowOperandResults := by
  refine ⟨fun q r s v hq => ?word, fun q r s v => ⟨fun hq => ?byteW, fun hq => ?byteL⟩⟩
  case word =>
    intro out low
    have hlow : (s.L r).setWidth 16 = low := (BitVec.ofNat_toNat 16 _).symm
    have result {f : Word → Long} {y : Long} := complete_setL_of_read hq (s := s) (len := 2 + q.extraBytes) (r := r)
      (f := f) (y := y)
    exact ⟨result (setLow_eq_ofNat _ _), result (add_setWidth_eq_ofNat _ _), result (add_signExtend_eq_ofInt _ _),
      result (sub_setWidth_eq_ofInt _ _), result (sub_signExtend_eq_ofInt _ _), result (by rw [hlow]),
      result (by rw [hlow]), result (BitVec.ofNat_toNat 32 v).symm, result rfl⟩
  case byteW =>
    exact ⟨complete_setW_of_read hq (setLobW_eq_ofNat _ _), complete_setW_of_read hq (BitVec.ofNat_toNat 16 v).symm,
      complete_setW_of_read hq rfl⟩
  case byteL =>
    exact ⟨complete_setL_of_read hq (setLobL_eq_ofNat _ _), complete_setL_of_read hq (BitVec.ofNat_toNat 32 v).symm,
      complete_setL_of_read hq rfl⟩

/-! ## leal, and stores to a register -/

/-- Where its operand is in memory leal loads the address (40_data_movement.md R158). -/
theorem exec_leal_of_mem {q : QOp 32} {r : Reg} {s : State} {a : Long} (hq : q.kind longImms s = .mem a) :
    exec (.leal q r) s = longResult s (2 + q.extraBytes) r a := by
  change execLeal q r s = _
  rw [execLeal, hq]
  rfl

/-- Where its operand is a register or an immediate leal loads its value (40_data_movement.md R158). -/
theorem exec_leal_of_value {q : QOp 32} {r : Reg} {s : State} {v : Long} (hmem : ∀ a, q.kind longImms s ≠ .mem a)
    (hq : q.long s = .ok v) : exec (.leal q r) s = longResult s (2 + q.extraBytes) r v := by
  change execLeal q r s = _
  rw [execLeal]
  rw [QOp.long] at hq
  cases hkind : q.kind longImms s with
  | reg k =>
    rw [hkind] at hq
    obtain rfl := Except.ok.inj hq
    rfl
  | imm u =>
    rw [hkind] at hq
    obtain rfl := Except.ok.inj hq
    rfl
  | mem a => exact absurd hkind (hmem a)

/-- Settles O34. A set instruction and its sibling differ in their encodings alone. -/
theorem flagsSetAndAddressResults : Obligations.FlagsSetAndAddressResults :=
  fun _ _ _ _ => ⟨fun _ v hq => complete_setFlags_of_read hq (flagBits_eq_ofNat v), rfl, rfl, rfl, rfl, rfl,
    fun _ _ hq => exec_leal_of_mem hq, fun _ _ hmem hq => exec_leal_of_value hmem hq⟩

/-- Settles O43. What a byte store to a register writes is the register with its low byte replaced. -/
theorem storesToRegisters : Obligations.StoresToRegisters := by
  intro s k r
  have byteW : setLobW (s.W k) ((s.W r).setWidth 8) =
      BitVec.ofNat 16 ((s.W k).toNat / 256 * 256 + (s.W r).toNat % 256) := by
    rw [setLobW_eq_ofNat, BitVec.toNat_setWidth]
  have byteL : setLobL (s.L k) ((s.L r).setWidth 8) =
      BitVec.ofNat 32 ((s.L k).toNat / 256 * 256 + (s.L r).toNat % 256) := by
    rw [setLobL_eq_ofNat, BitVec.toNat_setWidth]
  exact ⟨rfl, rfl, rfl, rfl, congrArg (wordResult s 2 k) byteW, congrArg (longResult s 2 k) byteL,
    congrArg (wordResult s 2 k) (BitVec.ofNat_toNat 16 (s.L r)).symm⟩

/-! ## Floating moves and signs -/

theorem FloatFormat.infBits_pos {fmt : FloatFormat} (hfmt : fmt.Regular) : 0 < fmt.infBits := by
  have hexp : 1 < 2 ^ fmt.expBits := Nat.one_lt_two_pow (by have := hfmt.two_le_expBits; omega)
  exact Nat.mul_pos (Nat.sub_pos_of_lt hexp) (Nat.two_pow_pos _)

/-- The pattern of +0. -/
theorem FloatFormat.unpack_zero {fmt : FloatFormat} (hfmt : fmt.Regular) : fmt.unpack 0 = .fin false 0 := by
  simpa [FloatFormat.pack, FloatFormat.magnitude_eq_zero.2 rfl] using
    FloatFormat.unpack_pack false (FloatFormat.infBits_pos hfmt)

/-- The value of any pattern, by its sign bit and its other bits (44_convert_compare.md R300 item 1). -/
theorem FloatFormat.unpack_pack_eq_ite (fmt : FloatFormat) (neg : Bool) {x : Nat} (hx : x < fmt.signWeight) :
    fmt.unpack (fmt.pack neg x) =
      if x < fmt.infBits then .fin neg (fmt.magnitude x) else if x = fmt.infBits then .inf neg else .nan := by
  cases neg with
  | false => simp [FloatFormat.unpack, FloatFormat.pack, Nat.div_eq_of_lt hx, Nat.mod_eq_of_lt hx]
  | true =>
    have hdiv : (fmt.signWeight + x) / fmt.signWeight = 1 := by
      rw [Nat.add_div_left _ (by omega), Nat.div_eq_of_lt hx]
    simp [FloatFormat.unpack, FloatFormat.pack, hdiv, Nat.mod_eq_of_lt hx]

/-- A pattern without sign bit is not negative: +0, a positive number, +infinity or a NaN. -/
theorem FloatFormat.isNegative_of_lt {fmt : FloatFormat} (hfmt : fmt.Regular) {x : Nat} (hx : x < fmt.signWeight) :
    fmt.isNegative x = false := by
  have hunpack := fmt.unpack_pack_eq_ite false hx
  rw [show fmt.pack false x = x from rfl] at hunpack
  rw [FloatFormat.isNegative, FloatFormat.cmp, hunpack, FloatFormat.unpack_zero hfmt]
  split
  · simp [FloatValue.order, signedMag, compare_lt_iff_lt]
  · split <;> rfl

/-- A pattern with sign bit is negative unless it is -0 or a NaN. -/
theorem FloatFormat.isNegative_signWeight_add {fmt : FloatFormat} (hfmt : fmt.Regular) {x : Nat}
    (hx : x < fmt.signWeight) : fmt.isNegative (fmt.signWeight + x) = true ↔ 0 < x ∧ x ≤ fmt.infBits := by
  have hunpack := fmt.unpack_pack_eq_ite true hx
  rw [show fmt.pack true x = fmt.signWeight + x from rfl] at hunpack
  rw [FloatFormat.isNegative, FloatFormat.cmp, hunpack, FloatFormat.unpack_zero hfmt]
  split
  · next hfin =>
    have hzero : fmt.magnitude x = 0 ↔ x = 0 := FloatFormat.magnitude_eq_zero
    simp [FloatValue.order, signedMag, compare_lt_iff_lt, Nat.pos_iff_ne_zero, hzero, hfin.le]
  · split
    · next hinf => exact iff_of_true rfl ⟨hinf ▸ FloatFormat.infBits_pos hfmt, hinf.le⟩
    · next hfin hinf => exact iff_of_false nofun fun ⟨_, hle⟩ => hfin (lt_of_le_of_ne hle hinf)

/-- The patterns that compare less than zero: the sign bit and a magnitude from the least denormal to infinity
(42_divide_other_arith.md R239). -/
theorem FloatFormat.isNegative_iff {fmt : FloatFormat} (hfmt : fmt.Regular) {b : Nat} (hb : b < 2 * fmt.signWeight) :
    fmt.isNegative b = true ↔ fmt.signWeight < b ∧ b ≤ fmt.signWeight + fmt.infBits := by
  rcases Nat.lt_or_ge b fmt.signWeight with hlt | hge
  · rw [FloatFormat.isNegative_of_lt hfmt hlt]
    simp only [Bool.false_eq_true, false_iff]
    omega
  · obtain ⟨x, rfl⟩ := Nat.exists_eq_add_of_le hge
    rw [FloatFormat.isNegative_signWeight_add hfmt (by omega)]
    omega

/-- Settles O35. An absolute value clears the sign bit where `FloatFormat.isNegative_iff` says that it does. -/
theorem floatMovesAndSigns : Obligations.FloatMovesAndSigns := by
  refine ⟨fun q r s v hq => ?float, fun q r s v hq => ?double⟩
  case float =>
    have hneg := FloatFormat.isNegative_iff (FloatFormat.regular_of_standard (.inl rfl)) v.isLt
    exact ⟨complete_setF_of_read hq rfl, complete_setF_of_read hq rfl,
      complete_setF_of_read hq (if_congr hneg rfl rfl)⟩
  case double =>
    have hneg := FloatFormat.isNegative_iff (FloatFormat.regular_of_standard (.inr rfl)) v.isLt
    exact ⟨complete_setD_of_read hq rfl, complete_setD_of_read hq rfl,
      complete_setD_of_read hq (if_congr hneg rfl rfl)⟩

end Sys2Proof.Machine
end

section
/-! PROOFS. Stores to memory (40_data_movement.md R150 to R156, R161 to R165). Every store instruction stores a bit pattern
at the address its operand denotes; the source it is taken from may be wider, and then agrees with the pattern on the bytes
stored. -/

namespace Sys2Proof.Machine

/-- The bytes of a number are those of its remainder modulo 256^n, as far as `n` bytes reach. -/
theorem ofNat_mod_pow_div_pow (v : Nat) {n k : Nat} (hk : k < n) :
    BitVec.ofNat 8 (v % 256 ^ n / 256 ^ k) = BitVec.ofNat 8 (v / 256 ^ k) := by
  have hsplit : 256 ^ n = 256 ^ k * 256 ^ (n - k) := by rw [← Nat.pow_add, Nat.add_sub_cancel' hk.le]
  have hdvd : 256 ∣ 256 ^ (n - k) := dvd_pow_self 256 (by omega)
  apply BitVec.eq_of_toNat_eq
  rw [BitVec.toNat_ofNat, BitVec.toNat_ofNat, hsplit, Nat.mod_mul_right_div_self]
  exact Nat.mod_mod_of_dvd _ hdvd

/-- A store of `n` bytes depends on the remainder modulo 256^n alone. -/
theorem storedAt_of_mod {s t : State} {a : Long} {n v : Nat} (h : storedAt s t a n (v % 256 ^ n)) :
    storedAt s t a n v := by
  obtain ⟨hbytes, hother⟩ := h
  exact ⟨fun k hk => (hbytes k hk).trans (ofNat_mod_pow_div_pow v hk), hother⟩

/-- An instruction that ends in a write inside memory stores the bytes and nothing else. -/
theorem storeResult_memWrite {s : State} {a : Long} {n : Nat} (w : s.mem.wf) (hfit : a.toNat + n ≤ s.params.memSize)
    (len v : Nat) : storeResult s len a n v (complete s len (s.memWrite a n v)) := by
  rw [State.memWrite_eq_ok.2 ⟨hfit, rfl⟩]
  exact ⟨_, rfl, State.storedAt_setMem_writeLE w a n v, rfl⟩

/-- An instruction that stores the low bits of a number to an operand in memory (30_encoding.md R103). -/
theorem storeResult_store {s : State} {n b : Nat} {kind : QKind n} {a : Long} (hkind : kind = .mem a) (hn : n = 8 * b)
    (w : s.mem.wf) (hfit : a.toNat + b ≤ s.params.memSize) {v : BitVec n} {u : Nat} (hv : v = BitVec.ofNat n u)
    (setReg : Reg → BitVec n → State) (len : Nat) :
    storeResult s len a b u (complete s len (kind.store setReg v s)) := by
  have hbytes : n / 8 = b := by omega
  have hmod : v.toNat = u % 256 ^ b := by rw [hv, BitVec.toNat_ofNat, hn, Nat.pow_mul]
  rw [hkind, QKind.store_mem, hbytes, hmod]
  obtain ⟨t, ht, hstored, hframe⟩ := storeResult_memWrite w hfit len (u % 256 ^ b)
  exact ⟨t, ht, storedAt_of_mod hstored, hframe⟩

/-- The address of an operand in memory does not depend on the operand type (30_encoding.md R101). -/
theorem QOp.kind_eq_mem {n : Nat} {t t' : ImmTable n} {s : State} {q : QOp n} {a : Long} (h : q.kind t s = .mem a) :
    q.kind t' s = .mem a := by
  cases q with
  | base | bd2 | mema | x => exact h
  | reg | immMinus1 | imm0 | imm1 | immv | imm2 => exact nomatch h

/-- What a set instruction stores, as a number (40_data_movement.md R162 to R165). -/
theorem ite_one_zero_eq_ofNat (n : Nat) (b : Bool) : (if b then 1 else 0 : BitVec n) = BitVec.ofNat n b.toNat := by
  cases b <;> rfl

/-- A pattern is the pattern of its unsigned number. -/
theorem eq_ofNat_toNat {n : Nat} (x : BitVec n) : x = BitVec.ofNat n x.toNat := by
  rw [BitVec.ofNat_toNat, BitVec.setWidth_eq]

/-- Settles O42: each source agrees with the pattern stored on the bytes stored. -/
theorem storesToMemory : Obligations.StoresToMemory := by
  intro s r c a w
  refine ⟨fun q hq hfit => ?word, fun q hq hfit => ?long, fun q hq hfit => ?double, fun q hq hfit => ?byte⟩
  case word =>
    have result {v : Word} {u : Nat} (hv : v = BitVec.ofNat 16 u) := storeResult_store hq rfl w hfit hv
    exact ⟨result (eq_ofNat_toNat _) _ _, result (BitVec.ofNat_toNat 16 _).symm _ _, result (eq_ofNat_toNat _) _ _,
      result (ite_one_zero_eq_ofNat 16 _) _ _, result (ite_one_zero_eq_ofNat 16 _) _ _⟩
  case long =>
    have result {v : Long} {u : Nat} (hv : v = BitVec.ofNat 32 u) := storeResult_store hq rfl w hfit hv
    have hfloat : q.kind floatImms s = .mem a := QOp.kind_eq_mem hq
    exact ⟨result (eq_ofNat_toNat _) _ _, storeResult_store hfloat rfl w hfit (eq_ofNat_toNat _) _ _,
      result (ite_one_zero_eq_ofNat 32 _) _ _, result (ite_one_zero_eq_ofNat 32 _) _ _⟩
  case double => exact storeResult_store hq rfl w hfit (eq_ofNat_toNat _) _ _
  case byte =>
    have result {v : Byte} {u : Nat} (hv : v = BitVec.ofNat 8 u) := storeResult_store hq rfl w hfit hv
    exact ⟨result (BitVec.ofNat_toNat 8 _).symm _ _, result (BitVec.ofNat_toNat 8 _).symm _ _⟩

end Sys2Proof.Machine
end

section
/-! PROOFS. Register groups (40_data_movement.md R148) and the instructions that move them (R149, R157). A group that takes
more than one register is written piece by piece: the write gives each register of the group its piece and leaves the
others, and the pieces of a number, read back least significant first, are the number. -/

namespace Sys2Proof

open Sys2Proof.Machine

/-! ## Pieces and bytes of numbers -/

/-- The bits of `k` bytes, as the model writes them and as the statements do. -/
theorem two_pow_eight_mul (k : Nat) : 2 ^ (8 * k) = 256 ^ k := Nat.pow_mul 2 8 k

/-- The low part of a number replaced: the new low part. -/
theorem replaced_mod (x v m : Nat) : (x / m * m + v % m) % m = v % m := by
  rw [Nat.mul_comm, Nat.mul_add_mod, Nat.mod_mod]

/-- The low part of a number replaced: the high part is kept. -/
theorem replaced_div {m : Nat} (hm : 0 < m) (x v : Nat) : (x / m * m + v % m) / m = x / m := by
  rw [Nat.mul_comm, Nat.mul_add_div hm, Nat.div_eq_of_lt (Nat.mod_lt _ hm), Nat.add_zero]

/-- The low part of a number replaced: the number stays below a multiple of the part. -/
theorem replaced_lt {m k x : Nat} (hm : 0 < m) (hdvd : m ∣ k) (hx : x < k) (v : Nat) : x / m * m + v % m < k := by
  obtain ⟨c, rfl⟩ := hdvd
  have hhigh : x / m < c := Nat.div_lt_of_lt_mul hx
  have hlow : v % m < m := Nat.mod_lt _ hm
  calc x / m * m + v % m < x / m * m + m := by omega
    _ = m * (x / m + 1) := by ring
    _ ≤ m * c := Nat.mul_le_mul_left _ hhigh

/-- The piece after the first `i + 1` is the `i`-th of the number without its first piece. -/
theorem div_pow_mul_succ (v size i : Nat) : v / 256 ^ size / 256 ^ (size * i) = v / 256 ^ (size * (i + 1)) := by
  rw [Nat.mul_succ, Nat.add_comm, Nat.pow_add, Nat.div_div_eq_div_mul]

namespace GReg

/-! ## The registers of a group -/

theorem nth_zero (g : GReg) : g.nth 0 = g := by
  rw [nth, Nat.add_zero, Fin.ofNat_val_eq_self]

@[simp] theorem nth_file (g : GReg) (j : Nat) : (g.nth j).file = g.file := rfl

/-- Inside the file the `j`-th register of a group has the `j`-th number from its first. -/
theorem nth_idx_val {g : GReg} {j : Nat} (h : g.idx.val + j < 8) : (g.nth j).idx.val = g.idx.val + j :=
  Nat.mod_eq_of_lt h

/-- Every register of the file from the first of a group on has a place in the group. -/
theorem exists_eq_nth {g h : GReg} (hfile : h.file = g.file) (hle : g.idx.val ≤ h.idx.val) :
    ∃ i, g.idx.val + i < 8 ∧ h = g.nth i := by
  have hlt : g.idx.val + (h.idx.val - g.idx.val) < 8 := by omega
  refine ⟨h.idx.val - g.idx.val, hlt, ?_⟩
  have hidx : h.idx = (g.nth (h.idx.val - g.idx.val)).idx := Fin.ext (by rw [nth_idx_val hlt]; omega)
  cases h
  cases hfile
  exact congrArg (GReg.mk g.file) hidx

/-- Different places of a group inside its file are different registers. -/
theorem nth_ne {g : GReg} {i j : Nat} (hi : g.idx.val + i < 8) (hj : g.idx.val + j < 8) (hne : i ≠ j) :
    g.nth i ≠ g.nth j := by
  intro h
  have hidx := congrArg (fun g => g.idx.val) h
  simp only [nth_idx_val hi, nth_idx_val hj] at hidx
  omega

/-! ## A group of several registers -/

/-- Where the registers hold the successive pieces of `v`, the group holds `v`, as far as its registers do. -/
theorem groupValue_of_pieces {g : GReg} {t : State} {j c v : Nat}
    (hpieces : ∀ i < c, t.G (g.nth (j + i)) = v / 256 ^ (g.file.size * i) % 256 ^ g.file.size) :
    g.groupValue t j c = v % 256 ^ (g.file.size * c) := by
  induction c generalizing j v with
  | zero => simp [groupValue, Nat.mod_one]
  | succ c ih =>
    have hfirst : t.G (g.nth j) = v % 256 ^ g.file.size := by simpa using hpieces 0 (by omega)
    have hrest : g.groupValue t (j + 1) c = v / 256 ^ g.file.size % 256 ^ (g.file.size * c) := by
      refine ih fun i hi => ?_
      rw [div_pow_mul_succ, Nat.add_assoc, Nat.add_comm 1 i]
      exact hpieces (i + 1) (by omega)
    rw [groupValue, two_pow_eight_mul, hfirst, hrest, Nat.mul_succ, Nat.add_comm (g.file.size * c), Nat.pow_add,
      Nat.mod_mul]

/-- A register that is none of those written keeps what it held. -/
theorem setGroup_G_other {g h : GReg} {j c v : Nat} {s : State} (hne : ∀ i < c, g.nth (j + i) ≠ h) :
    (g.setGroup j c v s).G h = s.G h := by
  induction c generalizing j v s with
  | zero => rfl
  | succ c ih =>
    have hfirst : g.nth j ≠ h := hne 0 (by omega)
    have hrest : ∀ i < c, g.nth (j + 1 + i) ≠ h := fun i hi => by
      rw [Nat.add_assoc, Nat.add_comm 1 i]
      exact hne (i + 1) (by omega)
    rw [setGroup, ih hrest, State.setG_G_other _ _ _ _ hfirst]

/-- Each register written gets its piece. -/
theorem setGroup_G_nth {g : GReg} {j c v i : Nat} {s : State} (hfits : g.idx.val + j + c ≤ 8) (hi : i < c) :
    (g.setGroup j c v s).G (g.nth (j + i)) = v / 256 ^ (g.file.size * i) % 256 ^ g.file.size := by
  induction c generalizing j v s i with
  | zero => omega
  | succ c ih =>
    rw [setGroup, two_pow_eight_mul]
    cases i with
    | zero =>
      have hother : ∀ k < c, g.nth (j + 1 + k) ≠ g.nth j := fun k hk => nth_ne (by omega) (by omega) (by omega)
      rw [Nat.add_zero j, setGroup_G_other hother, State.setG_G_self, nth_file, two_pow_eight_mul, Nat.mul_zero,
        Nat.pow_zero, Nat.div_one]
    | succ i =>
      have hplace : j + (i + 1) = j + 1 + i := by omega
      rw [hplace, ih (by omega) (by omega), div_pow_mul_succ]

/-! ## How many registers a group takes -/

/-- A value wider than the register takes a whole number of registers. -/
theorem size_mul_bytes_div {n : SizeCode} {file : RegFile} (h : file.size < n.bytes) :
    file.size * (n.bytes / file.size) = n.bytes := by
  cases file <;> revert n <;> decide

/-- A value that is no wider than the register takes one register. -/
theorem bytes_div_ceil_of_le {n : SizeCode} {file : RegFile} (h : n.bytes ≤ file.size) :
    (n.bytes + file.size - 1) / file.size = 1 := by
  cases file <;> revert n <;> decide

/-- The registers are counted rounding up, which is exact where there are several. -/
theorem bytes_div_ceil_of_lt {n : SizeCode} {file : RegFile} (h : file.size < n.bytes) :
    (n.bytes + file.size - 1) / file.size = n.bytes / file.size := by
  cases file <;> revert n <;> decide

/-! ## Reading and writing a group that fits -/

section
variable {g : GReg} {n : SizeCode} (hfits : g.groupFits n = true)
include hfits

theorem groupRead_of_le (hle : n.bytes ≤ g.file.size) (s : State) :
    g.groupRead n s = .ok (s.G g % 256 ^ n.bytes) := by
  rw [groupRead, if_pos hfits, if_pos hle, two_pow_eight_mul]

theorem groupRead_of_lt (hlt : g.file.size < n.bytes) (s : State) :
    g.groupRead n s = .ok (g.groupValue s 0 (n.bytes / g.file.size)) := by
  rw [groupRead, if_pos hfits, if_neg hlt.not_ge]

theorem groupWrite_of_le (hle : n.bytes ≤ g.file.size) (v : Nat) (s : State) :
    g.groupWrite n v s = .ok (s.setG g (s.G g / 256 ^ n.bytes * 256 ^ n.bytes + v % 256 ^ n.bytes)) := by
  rw [groupWrite, if_pos hfits, if_pos hle, two_pow_eight_mul]

theorem groupWrite_of_lt (hlt : g.file.size < n.bytes) (v : Nat) (s : State) :
    g.groupWrite n v s = .ok (g.setGroup 0 (n.bytes / g.file.size) v s) := by
  rw [groupWrite, if_pos hfits, if_neg hlt.not_ge]

theorem exists_groupRead (s : State) : ∃ v, g.groupRead n s = .ok v := by
  rcases Nat.lt_or_ge g.file.size n.bytes with hlt | hle
  · exact ⟨_, groupRead_of_lt hfits hlt s⟩
  · exact ⟨_, groupRead_of_le hfits hle s⟩

theorem exists_groupWrite (v : Nat) (s : State) : ∃ t, g.groupWrite n v s = .ok t := by
  rcases Nat.lt_or_ge g.file.size n.bytes with hlt | hle
  · exact ⟨_, groupWrite_of_lt hfits hlt v s⟩
  · exact ⟨_, groupWrite_of_le hfits hle v s⟩

/-- A group of several registers that fits ends inside the file. -/
theorem idx_add_le_of_groupFits (hlt : g.file.size < n.bytes) : g.idx.val + n.bytes / g.file.size ≤ 8 := by
  rw [groupFits, Bool.or_eq_true, decide_eq_true_eq, decide_eq_true_eq] at hfits
  omega

end

/-! ## What a group write leaves in the registers -/

/-- A group write changes nothing but registers. -/
theorem groupWrite_eq_registers {g : GReg} {n : SizeCode} {v : Nat} {s t : State} (ht : g.groupWrite n v s = .ok t) :
    t = { s with w := t.w, l := t.l, f := t.f, d := t.d } := by
  obtain ⟨hmem, hparams, hflags, hstatus, hpc, hfree⟩ := groupWrite_frame g n v s t ht
  rw [← hmem, ← hparams, ← hflags, ← hstatus, ← hpc, ← hfree]

section
variable {g : GReg} {n : SizeCode} {v : Nat} {s t : State} (hfits : g.groupFits n = true)
  (ht : g.groupWrite n v s = .ok t)
include hfits ht

/-- A value no wider than the register replaces its low bytes. -/
theorem groupWrite_G_low (hle : n.bytes ≤ g.file.size) :
    t.G g % 256 ^ n.bytes = v % 256 ^ n.bytes ∧ t.G g / 256 ^ n.bytes = s.G g / 256 ^ n.bytes := by
  have hm : 0 < 256 ^ n.bytes := Nat.pow_pos (by decide)
  have hlt : s.G g < 256 ^ g.file.size := two_pow_eight_mul g.file.size ▸ s.G_lt g
  obtain rfl := Except.ok.inj ((groupWrite_of_le hfits hle v s).symm.trans ht)
  rw [State.setG_G_self, two_pow_eight_mul, Nat.mod_eq_of_lt (replaced_lt hm (pow_dvd_pow 256 hle) hlt v)]
  exact ⟨replaced_mod _ _ _, replaced_div hm _ _⟩

/-- The registers of a group that is not narrower than one register hold the pieces, the least significant first. -/
theorem groupWrite_G_nth (hle : g.file.size ≤ n.bytes) {i : Nat} (hi : i < n.bytes / g.file.size) :
    t.G (g.nth i) = v / 256 ^ (g.file.size * i) % 256 ^ g.file.size := by
  rcases hle.lt_or_eq with hlt | heq
  · obtain rfl := Except.ok.inj ((groupWrite_of_lt hfits hlt v s).symm.trans ht)
    have h := setGroup_G_nth (g := g) (j := 0) (v := v) (s := s) (idx_add_le_of_groupFits hfits hlt) hi
    rwa [Nat.zero_add] at h
  · have hsize : 0 < g.file.size := heq ▸ Nat.two_pow_pos _
    obtain rfl : i = 0 := by rwa [← heq, Nat.div_self hsize, Nat.lt_one_iff] at hi
    have hlt : t.G g < 256 ^ g.file.size := two_pow_eight_mul g.file.size ▸ t.G_lt g
    obtain ⟨hlow, -⟩ := groupWrite_G_low hfits ht heq.ge
    rw [← heq, Nat.mod_eq_of_lt hlt] at hlow
    rw [nth_zero, hlow, Nat.mul_zero, Nat.pow_zero, Nat.div_one]

/-- The registers of another file, below the group or above it keep what they held. -/
theorem groupWrite_G_other {h : GReg} (hout : h.file ≠ g.file ∨ h.idx.val < g.idx.val ∨
    g.idx.val + (n.bytes + g.file.size - 1) / g.file.size ≤ h.idx.val) : t.G h = s.G h := by
  rcases Nat.lt_or_ge g.file.size n.bytes with hlt | hle
  · obtain rfl := Except.ok.inj ((groupWrite_of_lt hfits hlt v s).symm.trans ht)
    refine setGroup_G_other fun i hi => ?_
    rw [bytes_div_ceil_of_lt hlt] at hout
    have hend := idx_add_le_of_groupFits hfits hlt
    rintro rfl
    rw [Nat.zero_add, nth_idx_val (by omega), nth_file] at hout
    have hidx := hout.resolve_left (not_not.2 rfl)
    omega
  · obtain rfl := Except.ok.inj ((groupWrite_of_le hfits hle v s).symm.trans ht)
    refine State.setG_G_other _ _ _ _ ?_
    rw [bytes_div_ceil_of_le hle] at hout
    rintro rfl
    have hidx := hout.resolve_left (not_not.2 rfl)
    omega

/-- What was written is read back, as far as its bytes hold it. -/
theorem groupRead_groupWrite : g.groupRead n t = .ok (v % 256 ^ n.bytes) := by
  rcases Nat.lt_or_ge g.file.size n.bytes with hlt | hle
  · have hpieces : ∀ i < n.bytes / g.file.size,
        t.G (g.nth (0 + i)) = v / 256 ^ (g.file.size * i) % 256 ^ g.file.size := fun i hi =>
      (Nat.zero_add i).symm ▸ groupWrite_G_nth hfits ht hlt.le hi
    rw [groupRead_of_lt hfits hlt, groupValue_of_pieces hpieces, size_mul_bytes_div hlt]
  · rw [groupRead_of_le hfits hle, (groupWrite_G_low hfits ht hle).1]

end

/-- Settles O45, clause by clause from what a group write leaves in the registers. -/
theorem groupWriteIsReadBack : Obligations.GroupWriteIsReadBack := by
  intro n g v s hfits
  obtain ⟨t, ht⟩ := exists_groupWrite hfits v s
  refine ⟨t, ht, groupRead_groupWrite hfits ht, fun h => groupWrite_G_other hfits ht,
    fun hle h hfile hfirst hlast => ?_, fun hlt => groupWrite_G_low hfits ht hlt.le, groupWrite_eq_registers ht⟩
  obtain ⟨i, hi, rfl⟩ := exists_eq_nth hfile hfirst
  rw [nth_idx_val hi, Nat.add_lt_add_iff_left] at hlast
  rw [nth_idx_val hi, Nat.add_sub_cancel_left]
  exact groupWrite_G_nth hfits ht hle hlast

end GReg

/-! ## gmov and gsto -/

section
variable {n : SizeCode} {g : GReg} {m : MOp} {s : State}

/-- gmov writes what it reads to its group (40_data_movement.md R149). -/
theorem exec_gmov {v : Nat} {t : State} (hread : m.read n s = .ok v) (hwrite : g.groupWrite n v s = .ok t) :
    exec (.gmov n g m) s = .next { t with pc := s.pc + BitVec.ofNat 32 (2 + m.extraBytes) } := by
  change execGmov n g m s = _
  rw [execGmov, hread]
  change complete s _ (g.groupWrite n v s) = _
  rw [hwrite]
  rfl

/-- gsto stores what its group holds (40_data_movement.md R157). -/
theorem exec_gsto {v : Nat} (hread : g.groupRead n s = .ok v) :
    exec (.gsto n g m) s = complete s (2 + m.extraBytes) (m.write n v s) := by
  change execGsto n g m s = _
  rw [execGsto, hread]
  rfl

/-- The m-operands in memory are read and written at their address (30_encoding.md R116, R117). -/
theorem MOp.read_write_of_mem {a : Long} (hm : m = .mmema a ∨ ∃ x, m = .x x ∧ x.ea s = a) :
    m.read n s = s.memRead a n.bytes ∧ ∀ v, m.write n v s = s.memWrite a n.bytes v := by
  rcases hm with rfl | ⟨x, rfl, rfl⟩
  · exact ⟨MOp.read_mmema n s a, fun v => MOp.write_mmema n v s a⟩
  · exact ⟨MOp.read_x n s x, fun v => MOp.write_x n v s x⟩

end

/-- Settles O44: a group that fits can be read and written, and a memory operand inside MEMSIZE too. -/
theorem groupMovesComplete : Obligations.GroupMovesComplete := by
  intro n g h s hg hh
  refine ⟨?groups, fun m a hm hfit w => ⟨?load, ?store⟩⟩
  case groups =>
    obtain ⟨v, hread⟩ := GReg.exists_groupRead hh s
    obtain ⟨t, hwrite⟩ := GReg.exists_groupWrite hg v s
    refine ⟨v, t, hread, hwrite, exec_gmov hread hwrite, (exec_gsto hread).trans ?_⟩
    rw [MOp.write_mreg, hwrite]
    rfl
  case load =>
    obtain ⟨hread, -⟩ := MOp.read_write_of_mem (n := n) hm
    obtain ⟨t, hwrite⟩ := GReg.exists_groupWrite hg (s.mem.readLE a.toNat n.bytes) s
    exact ⟨t, hwrite, exec_gmov (hread.trans (State.memRead_eq_ok.2 ⟨hfit, rfl⟩)) hwrite⟩
  case store =>
    obtain ⟨-, hwrite⟩ := MOp.read_write_of_mem (n := n) hm
    obtain ⟨v, hread⟩ := GReg.exists_groupRead hg s
    refine ⟨v, hread, ?_⟩
    rw [exec_gsto hread, hwrite]
    exact storeResult_memWrite w hfit _ v

end Sys2Proof
end

section
/-! PROOFS. The floating arithmetic instructions and the conversions between the formats (41_add_sub_mul.md R187, R188,
R194, R195, R207, R208, 42_divide_other_arith.md R237, R238, R244, R245, 44_convert_compare.md R316, R317). Each hands
the result of its operation, or none where it is invalid, to `State.putF` or `State.putD`; that the free value put in
place of none is a NaN is a fact about its bits. -/

namespace Sys2Proof.Machine

/-! ## The NaN a free value names -/

/-- Setting the exponent bits `e`, and bit 0 where the fraction bits `f` are all clear, makes any pattern a NaN
(44_convert_compare.md R300 item 5). -/
theorem nan_of_masks {n : Nat} {e f : BitVec n} (hdisjoint : e &&& f = 0) (hone : 1 &&& f ≠ 0) (x : BitVec n) :
    (x ||| e ||| (if x &&& f = 0 then 1 else 0)) &&& e = e ∧
    (x ||| e ||| (if x &&& f = 0 then 1 else 0)) &&& f ≠ 0 := by
  constructor
  · ext i hi
    cases he : e[i] <;> simp [he]
  · have hfraction (t : BitVec n) : (x ||| e ||| t) &&& f = x &&& f ||| t &&& f := by
      rw [BitVec.and_or_distrib_right, BitVec.and_or_distrib_right, hdisjoint]
      simp
    rw [hfraction]
    split
    · next hclear => simpa [hclear] using hone
    · next hset => simpa using hset

theorem isNanLong_nanLong (x : Long) : isNanLong (nanLong x) := nan_of_masks (by decide) (by decide) x

theorem isNanQuad_nanQuad (x : Quad) : isNanQuad (nanQuad x) := nan_of_masks (by decide) (by decide) x

/-! ## Instructions that read one operand and put a floating result -/

section
variable {α : Type} {x : Except Fault α} {v : α} (hx : x = .ok v) {s : State} {len : Nat} {r : Reg}
  (f : α → Option Nat)
include hx

theorem floatOutcome_complete_putF :
    floatOutcome s len r (f v) (complete s len (do let a ← x; return s.putF r (f a))) := by
  subst hx
  change floatOutcome s len r (f v) (.next ((s.putF r (f v)).setPc (s.npc len)))
  cases f v with
  | some b => rfl
  | none => exact ⟨_, isNanLong_nanLong _, rfl⟩

theorem doubleOutcome_complete_putD :
    doubleOutcome s len r (f v) (complete s len (do let a ← x; return s.putD r (f a))) := by
  subst hx
  change doubleOutcome s len r (f v) (.next ((s.putD r (f v)).setPc (s.npc len)))
  cases f v with
  | some b => rfl
  | none => exact ⟨_, isNanQuad_nanQuad _, rfl⟩

end

/-- Settles O36: the two conversions end in the other format's register, the ten other instructions in their own's. -/
theorem floatArithmeticCompletes : Obligations.FloatArithmeticCompletes := by
  refine ⟨fun q r s v hq => ?float, fun q r s v hq => ?double⟩
  case float =>
    have result (op : Nat → Option Nat) := floatOutcome_complete_putF hq (s := s) (len := 2 + q.extraBytes) (r := r)
      (fun a => op a.toNat)
    exact ⟨result (single.add _), result (single.sub _), result (single.mul _), result (single.div _),
      result single.sqrt, doubleOutcome_complete_putD hq fun a => double.convert single a.toNat⟩
  case double =>
    have result (op : Nat → Option Nat) := doubleOutcome_complete_putD hq (s := s) (len := 2 + q.extraBytes) (r := r)
      (fun a => op a.toNat)
    exact ⟨result (double.add _), result (double.sub _), result (double.mul _), result (double.div _),
      result double.sqrt, floatOutcome_complete_putF hq fun a => single.convert double a.toNat⟩

end Sys2Proof.Machine
end

section
/-! PROOFS. The integer divides and remainders (42_divide_other_arith.md R220 to R236). Each reads its divisor, makes its
tests and writes a function of the divisor; what is left to prove of the written numbers is that none is cut off, so that they
satisfy the division law. -/

namespace Sys2Proof.Machine

/-! ## The division law on bit patterns -/

section
variable {n m : Nat} {a : BitVec n} {d : BitVec m}

/-- An unsigned quotient and remainder lose nothing where they are written (42_divide_other_arith.md R220). -/
theorem unsigned_division_law (hd : d ≠ 0) :
    let q := BitVec.ofNat n (a.toNat / d.toNat)
    let r := BitVec.ofNat m (a.toNat % d.toNat)
    a.toNat = d.toNat * q.toNat + r.toNat ∧ r.toNat < d.toNat := by
  intro q r
  have hmod : a.toNat % d.toNat < d.toNat := Nat.mod_lt _ (BitVec.toNat_pos_of_ne_zero hd)
  have hq : q.toNat = a.toNat / d.toNat := Nat.mod_eq_of_lt ((Nat.div_le_self _ _).trans_lt a.isLt)
  have hr : r.toNat = a.toNat % d.toNat := Nat.mod_eq_of_lt (hmod.trans d.isLt)
  rw [hq, hr]
  exact ⟨(Nat.div_add_mod _ _).symm, hmod⟩

/-- A signed quotient that passes the test of `quotientFits` loses nothing where it is written. -/
theorem toInt_ofInt_tdiv (hm : 0 < m) (hmn : m ≤ n) (hfits : ¬ (a = BitVec.intMin n ∧ d = BitVec.allOnes m)) :
    (BitVec.ofInt n (a.toInt.tdiv d.toInt)).toInt = a.toInt.tdiv d.toInt := by
  have hext : (d.signExtend n).toInt = d.toInt := BitVec.toInt_signExtend_of_le hmn
  have hne : a ≠ BitVec.intMin n ∨ d.signExtend n ≠ -1#n := by
    refine not_and_or.1 fun ⟨ha, hones⟩ => hfits ⟨ha, BitVec.eq_of_toInt_eq ?_⟩
    rw [← hext, hones, BitVec.neg_one_eq_allOnes, BitVec.toInt_allOnes, BitVec.toInt_allOnes, if_pos hm,
      if_pos (hm.trans_le hmn)]
  have := BitVec.toInt_sdiv_of_ne_or_ne a (d.signExtend n) hne
  rwa [BitVec.toInt_sdiv, hext, ← BitVec.toInt_ofInt] at this

theorem toInt_ne_zero (hd : d ≠ 0) : d.toInt ≠ 0 := by
  rw [← BitVec.toInt_zero (w := m)]
  exact BitVec.toInt_ne.2 hd

theorem natAbs_tmod_lt {i j : Int} (hj : j ≠ 0) : (i.tmod j).natAbs < j.natAbs := by
  rw [Int.natAbs_tmod]
  exact Nat.mod_lt _ (Int.natAbs_pos.2 hj)

/-- A signed remainder loses nothing where it is written. -/
theorem toInt_ofInt_tmod (hm : 0 < m) (hd : d ≠ 0) (i : Int) :
    (BitVec.ofInt m (i.tmod d.toInt)).toInt = i.tmod d.toInt := by
  have hlt := natAbs_tmod_lt (i := i) (toInt_ne_zero hd)
  have hlo := d.le_toInt
  have hhi := d.toInt_lt
  exact BitVec.toInt_ofInt_eq_self hm (by omega) (by omega)

/-- A signed remainder has the sign of the dividend or is 0. -/
theorem tmod_mul_self_nonneg (i j : Int) : 0 ≤ i.tmod j * i := by
  rw [← Int.sign_nonneg_iff, Int.sign_mul, Int.sign_tmod]
  split
  · simp
  · exact mul_self_nonneg i.sign

/-- A signed quotient and remainder lose nothing where they are written (42_divide_other_arith.md R220). -/
theorem signed_division_law (hm : 0 < m) (hmn : m ≤ n) (hd : d ≠ 0)
    (hfits : ¬ (a = BitVec.intMin n ∧ d = BitVec.allOnes m)) :
    let q := BitVec.ofInt n (a.toInt.tdiv d.toInt)
    let r := BitVec.ofInt m (a.toInt.tmod d.toInt)
    a.toInt = d.toInt * q.toInt + r.toInt ∧ r.toInt.natAbs < d.toInt.natAbs ∧ 0 ≤ r.toInt * a.toInt := by
  intro q r
  have hq : q.toInt = a.toInt.tdiv d.toInt := toInt_ofInt_tdiv hm hmn hfits
  have hr : r.toInt = a.toInt.tmod d.toInt := toInt_ofInt_tmod hm hd _
  rw [hq, hr]
  exact ⟨(Int.mul_tdiv_add_tmod _ _).symm, natAbs_tmod_lt (toInt_ne_zero hd), tmod_mul_self_nonneg _ _⟩

end

/-! ## Where a division completes -/

section
variable {n m : Nat} {x : Except Fault (BitVec m)} {d : BitVec m} (hx : x = .ok d) (hd : d ≠ 0) {s : State} {len : Nat}
include hx hd

theorem complete_unsigned_division (f : BitVec m → State) :
    complete s len (do let v ← x; nonzeroDivisor s v; return f v) = .next ((f d).setPc (s.npc len)) := by
  have hnonzero : nonzeroDivisor s d = .ok () := if_neg hd
  subst hx
  change complete s len (nonzeroDivisor s d >>= fun _ => .ok (f d)) = _
  rw [hnonzero]
  rfl

theorem complete_signed_division {a : BitVec n} (hfits : ¬ (a = BitVec.intMin n ∧ d = BitVec.allOnes m))
    (f : BitVec m → State) :
    complete s len (do let v ← x; nonzeroDivisor s v; quotientFits s a v; return f v) =
      .next ((f d).setPc (s.npc len)) := by
  have hnonzero : nonzeroDivisor s d = .ok () := if_neg hd
  have hquotient : quotientFits s a d = .ok () := if_neg hfits
  subst hx
  change complete s len (nonzeroDivisor s d >>= fun _ => quotientFits s a d >>= fun _ => .ok (f d)) = _
  rw [hnonzero, hquotient]
  rfl

theorem next_unsigned_division {f : BitVec m → State} {t : State}
    (ht : complete s len (do let v ← x; nonzeroDivisor s v; return f v) = .next t) : t = (f d).setPc (s.npc len) :=
  Host.Outcome.next.inj (ht.symm.trans (complete_unsigned_division hx hd f))

theorem next_signed_division {a : BitVec n} (hfits : ¬ (a = BitVec.intMin n ∧ d = BitVec.allOnes m))
    {f : BitVec m → State} {t : State}
    (ht : complete s len (do let v ← x; nonzeroDivisor s v; quotientFits s a v; return f v) = .next t) :
    t = (f d).setPc (s.npc len) :=
  Host.Outcome.next.inj (ht.symm.trans (complete_signed_division hx hd hfits f))

end

/-! ## The remainder of the divr forms -/

theorem qopReg_eq_none {n : Nat} {q : QOp n} (hq : ∀ k, q ≠ .reg k) : qopReg q = none := by
  cases q with
  | reg k => exact absurd rfl (hq k)
  | _ => rfl

@[simp] theorem State.remainderW_reg (s : State) (k : Reg) (v : Word) : s.remainderW (.reg k) v = s.setW k v := rfl
@[simp] theorem State.remainderL_reg (s : State) (k : Reg) (v : Long) : s.remainderL (.reg k) v = s.setL k v := rfl

theorem State.remainderW_of_not_reg {q : QOp 16} (hq : ∀ k, q ≠ .reg k) (s : State) (v : Word) :
    s.remainderW q v = s := by
  rw [State.remainderW, qopReg_eq_none hq]

theorem State.remainderL_of_not_reg {q : QOp 32} (hq : ∀ k, q ≠ .reg k) (s : State) (v : Long) :
    s.remainderL q v = s := by
  rw [State.remainderL, qopReg_eq_none hq]

/-- Settles O26: a divisor that passes the tests is divided by, and only a register divisor takes the remainder. -/
theorem divideResults : Obligations.DivideResults := by
  refine ⟨fun q r s d hq hd => ?word, fun q r s d hq hd => ?long, fun q r s d hq hd => ?longByWord⟩
  case word =>
    have unsigned := complete_unsigned_division hq hd (s := s) (len := 2 + q.extraBytes)
    have signed := complete_signed_division hq hd (s := s) (len := 2 + q.extraBytes) (a := s.W r)
    refine ⟨unsigned _, unsigned _, unsigned _, fun hfits => signed hfits _, ?_, fun hreg => ?_⟩
    · rintro k rfl
      exact ⟨unsigned _, fun hfits => signed hfits _⟩
    · exact ⟨(unsigned _).trans (by rw [State.remainderW_of_not_reg hreg]; rfl),
        fun hfits => (signed hfits _).trans (by rw [State.remainderW_of_not_reg hreg]; rfl)⟩
  case long =>
    have unsigned := complete_unsigned_division hq hd (s := s) (len := 2 + q.extraBytes)
    have signed := complete_signed_division hq hd (s := s) (len := 2 + q.extraBytes) (a := s.L r)
    refine ⟨unsigned _, unsigned _, unsigned _, fun hfits => signed hfits _, ?_, fun hreg => ?_⟩
    · rintro k rfl
      exact ⟨unsigned _, fun hfits => signed hfits _⟩
    · exact ⟨(unsigned _).trans (by rw [State.remainderL_of_not_reg hreg]; rfl),
        fun hfits => (signed hfits _).trans (by rw [State.remainderL_of_not_reg hreg]; rfl)⟩
  case longByWord =>
    have unsigned := complete_unsigned_division hq hd (s := s) (len := 2 + q.extraBytes)
    have signed := complete_signed_division hq hd (s := s) (len := 2 + q.extraBytes) (a := s.L r)
    refine ⟨?_, fun hreg => ?_⟩
    · rintro k rfl
      exact ⟨unsigned _, fun hfits => signed hfits _⟩
    · exact ⟨(unsigned _).trans (by rw [State.remainderW_of_not_reg hreg]; rfl),
        fun hfits => (signed hfits _).trans (by rw [State.remainderW_of_not_reg hreg]; rfl)⟩

/-- Settles O27. The divisor and the quotient are in different registers, by number or by file, so that both results are
read back. -/
theorem quotientAndRemainderSatisfyTheDivisionLaw : Obligations.QuotientAndRemainderSatisfyTheDivisionLaw := by
  intro k r s t
  have hword : (QOp.reg k).word s = .ok (s.W k) := rfl
  have hlong : (QOp.reg k).long s = .ok (s.L k) := rfl
  refine ⟨fun hkr hd ht => ?divruw, fun hkr hd ht => ?divrul, fun hd ht => ?divrulw,
    fun hkr hd hfits ht => ?divrsw, fun hkr hd hfits ht => ?divrsl, fun hd hfits ht => ?divrslw⟩
  case divruw =>
    obtain rfl := next_unsigned_division hword hd ht
    simpa [hkr] using unsigned_division_law hd
  case divrul =>
    obtain rfl := next_unsigned_division hlong hd ht
    simpa [hkr] using unsigned_division_law hd
  case divrulw =>
    obtain rfl := next_unsigned_division hword hd ht
    simpa using unsigned_division_law hd
  case divrsw =>
    obtain rfl := next_signed_division hword hd hfits ht
    simpa [hkr] using signed_division_law (by decide) le_rfl hd hfits
  case divrsl =>
    obtain rfl := next_signed_division hlong hd hfits ht
    simpa [hkr] using signed_division_law (by decide) le_rfl hd hfits
  case divrslw =>
    obtain rfl := next_signed_division hword hd hfits ht
    simpa using signed_division_law (by decide) (by decide) hd hfits

end Sys2Proof.Machine
end

section
/-! PROOFS. Square roots (42_divide_other_arith.md R244, R245, 44_convert_compare.md R300 item 2). `isqrt` is the integer
square root. `FloatFormat.root` rounds the leading bits of the root with half a unit for the rest in place of the exact
root; no midpoint of neighbouring patterns lies between the two, so both round to the same pattern. -/

namespace Sys2Proof.Machine

/-! ## The integer square root -/

/-- With the root known to lie less than 2^i above `r`, the remaining `i` bits find it. -/
theorem isqrtBits_eq_sqrt {n : Nat} : ∀ (i r : Nat), r * r ≤ n → n < (r + 2 ^ i) * (r + 2 ^ i) →
    isqrtBits i n r = n.sqrt := by
  intro i
  induction i with
  | zero => exact fun r hle hlt => Nat.eq_sqrt.2 ⟨hle, hlt⟩
  | succ i ih =>
    intro r hle hlt
    rw [Nat.pow_succ', Nat.two_mul, ← Nat.add_assoc] at hlt
    rw [isqrtBits]
    split
    · next hbit => exact ih _ hbit hlt
    · next hbit => exact ih _ hle (not_le.1 hbit)

theorem isqrt_eq_sqrt (n : Nat) : isqrt n = n.sqrt := by
  refine isqrtBits_eq_sqrt _ 0 (Nat.zero_le n) ?_
  rw [Nat.zero_add, ← Nat.pow_add]
  exact Nat.lt_log2_self.trans_le (Nat.pow_le_pow_right (by omega) (by omega))

/-! ## The approximation that is rounded -/

/-- With the root of `a` between `u * r` and `u * (r + 1)`, a number `x` is on the same side of `u * r + t` as of the root,
where `t` stands for the rest of the root and `x` is a multiple of `u` or below both. -/
theorem le_sticky_iff {u r t a x : Nat} (hlo : (u * r) ^ 2 ≤ a) (hhi : a < (u * (r + 1)) ^ 2) (ht : t < u)
    (hexact : t = 0 ↔ (u * r) ^ 2 = a) (hx : u ∣ x ∨ x < u * r) :
    (x ≤ u * r + t ↔ x ^ 2 ≤ a) ∧ (u * r + t ≤ x ↔ a ≤ x ^ 2) := by
  rcases lt_trichotomy x (u * r) with hlt | rfl | hgt
  · have := Nat.pow_lt_pow_left hlt two_ne_zero
    omega
  · omega
  · obtain ⟨j, rfl⟩ := hx.resolve_right hgt.not_gt
    have hj : r + 1 ≤ j := Nat.lt_of_mul_lt_mul_left hgt
    have hnext : u * (r + 1) ≤ u * j := Nat.mul_le_mul_left u hj
    have := Nat.pow_le_pow_left hnext 2
    rw [Nat.mul_succ] at hnext
    omega

namespace FloatFormat

variable {fmt : FloatFormat}

/-- How many of the low bits of the root of `n` units the approximation drops. -/
def rootShift (fmt : FloatFormat) (n : Nat) : Nat := n.log2 / 2 - (fmt.fracBits + 3)

/-- The approximation of the root of `n` units, in halves of a unit. -/
def rootHalves (fmt : FloatFormat) (n : Nat) : Nat :=
  let k := fmt.rootShift n
  let r := isqrt (n / 4 ^ k)
  (2 * r + if r * r * 4 ^ k = n then 0 else 1) * 2 ^ k

theorem root_eq_round_rootHalves {x : Nat} (hx : x ≠ 0) :
    fmt.root (.fin false x) = some (fmt.pack false (fmt.round (fmt.rootHalves (x * fmt.one)) 2)) := if_neg hx

/-- A midpoint of neighbouring patterns, in halves of a unit, is a multiple of 2^j or has few bits. -/
theorem two_pow_dvd_or_lt_midpoint (fmt : FloatFormat) (d j : Nat) :
    2 ^ j ∣ fmt.magnitude d + fmt.magnitude (d + 1) ∨
      fmt.magnitude d + fmt.magnitude (d + 1) < 2 ^ (fmt.fracBits + 2 + j) := by
  obtain ⟨e, m, rfl, hlo, hhi⟩ := fmt.exists_scaled d
  rw [Nat.add_assoc, magnitude_scaled hlo hhi.le, magnitude_scaled (by omega) hhi, ← Nat.add_mul]
  rcases Nat.le_total j e with hje | hej
  · exact .inl (Dvd.dvd.mul_left (pow_dvd_pow 2 hje) _)
  · have hbits : m + (m + 1) < 2 ^ (fmt.fracBits + 2) := by
      rw [Nat.pow_add]
      omega
    rw [Nat.pow_add 2 _ j]
    exact .inr (Nat.mul_lt_mul_of_lt_of_le hbits (Nat.pow_le_pow_right two_pos hej) (Nat.two_pow_pos j))

/-- The leading bits of the root are three more than the fraction holds. -/
theorem two_pow_le_isqrt {n : Nat} (hn : 2 ^ (2 * (fmt.fracBits + 3)) ≤ n) :
    2 ^ (fmt.fracBits + 3) ≤ isqrt (n / 4 ^ fmt.rootShift n) := by
  have hn0 : n ≠ 0 := (Nat.two_pow_pos _).trans_le hn |>.ne'
  have hlog : 2 * (fmt.fracBits + 3) ≤ n.log2 := (Nat.le_log2 hn0).2 hn
  rw [isqrt_eq_sqrt, Nat.le_sqrt, Nat.le_div_iff_mul_le (Nat.pow_pos four_pos), show 4 = 2 ^ 2 from rfl, ← Nat.pow_mul,
    ← Nat.pow_add, ← Nat.pow_add]
  exact (Nat.pow_le_pow_right two_pos (by rw [rootShift]; omega)).trans (Nat.log2_self_le hn0)

/-- A midpoint of neighbouring patterns, in halves of a unit, is on the same side of the approximation as of the root. -/
theorem midpoint_le_rootHalves_iff {n : Nat} (hn : 2 ^ (2 * (fmt.fracBits + 3)) ≤ n) (d : Nat) :
    let x := fmt.magnitude d + fmt.magnitude (d + 1)
    (x ≤ fmt.rootHalves n ↔ x ^ 2 ≤ 4 * n) ∧ (fmt.rootHalves n ≤ x ↔ 4 * n ≤ x ^ 2) := by
  have hbits := two_pow_le_isqrt hn
  rw [rootHalves]
  generalize fmt.rootShift n = k at *
  have hk := Nat.two_pow_pos k
  have hsq (y : Nat) : (2 ^ (k + 1) * y) ^ 2 = 4 * (y * y * 4 ^ k) := by
    rw [show 4 = 2 ^ 2 from rfl, ← Nat.pow_mul]
    ring
  have hlo := Nat.sqrt_le (n / 4 ^ k)
  have hhi := Nat.lt_succ_sqrt (n / 4 ^ k)
  rw [← isqrt_eq_sqrt, Nat.le_div_iff_mul_le (Nat.pow_pos four_pos)] at hlo
  rw [← isqrt_eq_sqrt, Nat.div_lt_iff_lt_mul (Nat.pow_pos four_pos)] at hhi
  generalize isqrt (n / 4 ^ k) = r at *
  have hmid : 2 ^ (k + 1) ∣ fmt.magnitude d + fmt.magnitude (d + 1) ∨
      fmt.magnitude d + fmt.magnitude (d + 1) < 2 ^ (k + 1) * r := by
    refine (fmt.two_pow_dvd_or_lt_midpoint d (k + 1)).imp_right fun h => h.trans_le ?_
    rw [Nat.pow_add, Nat.mul_comm]
    exact Nat.mul_le_mul_left _ ((Nat.pow_le_pow_right two_pos (by omega)).trans hbits)
  have hsum (b : Nat) : (2 * r + b) * 2 ^ k = 2 ^ (k + 1) * r + b * 2 ^ k := by ring
  simp only [hsum]
  refine le_sticky_iff (by rw [hsq]; omega) (by rw [hsq]; exact Nat.mul_lt_mul_of_pos_left hhi four_pos) ?_ ?_ hmid
  · rw [Nat.pow_succ]
    split <;> omega
  · rw [hsq]
    split <;> omega

/-! ## The exact root -/

/-- A number `q` is rounded as a `p`-th root by rounding an approximation `y` of the root, where every midpoint of neighbouring
patterns is on the same side of both. -/
theorem nearest_of_approximation (hfmt : fmt.Regular) {p m : Nat} {y q : ℚ} (hy : fmt.nearest 1 y m)
    (hside : ∀ d, let mid := (fmt.ieeeValue d + fmt.ieeeValue (d + 1)) / 2
      (mid ≤ y ↔ mid ^ p ≤ q) ∧ (y ≤ mid ↔ q ≤ mid ^ p)) : fmt.nearest p q m := by
  have hmono := (ieeeValue_strictMono hfmt).monotone
  have hnonneg := ieeeValue_nonneg hfmt
  have hpow {a b c : Nat} (hab : fmt.ieeeValue a ≤ fmt.ieeeValue b) :
      ((fmt.ieeeValue a + fmt.ieeeValue c) / 2) ^ p ≤ ((fmt.ieeeValue b + fmt.ieeeValue c) / 2) ^ p := by
    have := hnonneg a
    have := hnonneg c
    exact pow_le_pow_left₀ (by linarith) (by linarith) p
  obtain ⟨hinf, hnear⟩ := hy
  simp only [pow_one] at hnear
  refine ⟨hinf, fun d hd => ?_⟩
  rcases lt_trichotomy d m with hlt | rfl | hgt
  · -- `d` is at most the pattern before `m`
    obtain ⟨c, rfl⟩ : ∃ c, m = c + 1 := ⟨m - 1, by omega⟩
    obtain ⟨hbelow, -, heven⟩ := hnear c (by omega)
    obtain ⟨hle, hge⟩ := hside c
    have hc := hle.1 (hbelow c.lt_succ_self)
    have hdc := hpow (c := c + 1) (hmono (Nat.lt_succ_iff.1 hlt))
    exact ⟨fun _ => hdc.trans hc, fun h => absurd h hlt.asymm, fun _ htie =>
      heven c.succ_ne_self.symm (le_antisymm (hle.2 hc) (hge.2 (htie ▸ hdc)))⟩
  · exact ⟨fun h => absurd h (lt_irrefl _), fun h => absurd h (lt_irrefl _), fun h => absurd rfl h⟩
  · -- `d` is at least the pattern after `m`
    obtain ⟨-, habove, heven⟩ := hnear (m + 1) (by omega)
    obtain ⟨hle, hge⟩ := hside m
    rw [add_comm (fmt.ieeeValue m)] at hle hge
    have hm := hge.1 (habove m.lt_succ_self)
    have hdm := hpow (c := m) (hmono (Nat.succ_le_of_lt hgt))
    exact ⟨fun h => absurd h hgt.asymm, fun _ => hm.trans hdm, fun _ htie =>
      heven m.succ_ne_self (le_antisymm (hle.2 (htie ▸ hdm)) (hge.2 hm))⟩

/-- A pattern that is not 0 has enough units for its root to have more bits than the fraction. -/
theorem two_pow_le_magnitude_mul_one (hscale : 2 * (fmt.fracBits + 3) ≤ fmt.scale) {x : Nat} (hx : x ≠ 0) :
    2 ^ (2 * (fmt.fracBits + 3)) ≤ fmt.magnitude x * fmt.one :=
  (Nat.pow_le_pow_right two_pos hscale).trans
    (Nat.le_mul_of_pos_left _ (Nat.pos_of_ne_zero (mt magnitude_eq_zero.1 hx)))

theorem nearest_round_rootHalves (hfmt : fmt.Regular) (hscale : 2 * (fmt.fracBits + 3) ≤ fmt.scale) {x : Nat}
    (hx : x ≠ 0) :
    fmt.nearest 2 (fmt.ieeeValue x) (fmt.round (fmt.rootHalves (fmt.magnitude x * fmt.one)) 2) := by
  have hside := midpoint_le_rootHalves_iff (two_pow_le_magnitude_mul_one hscale hx)
  have hone := fmt.one_cast_pos
  have hone2 : (0 : ℚ) < 2 * fmt.one := by linarith
  generalize fmt.rootHalves (fmt.magnitude x * fmt.one) = h at hside ⊢
  refine nearest_of_approximation hfmt (y := h / (2 * fmt.one)) (nearest_round hfmt two_pos ?_) fun d => ?_
  · push_cast
    field_simp
  · have hmid : (fmt.ieeeValue d + fmt.ieeeValue (d + 1)) / 2 =
        (fmt.magnitude d + fmt.magnitude (d + 1) : Nat) / (2 * fmt.one) := by
      rw [ieeeValue_eq_div hfmt, ieeeValue_eq_div hfmt]
      push_cast
      field_simp
    have hvalue : fmt.ieeeValue x = (4 * (fmt.magnitude x * fmt.one) : Nat) / (2 * fmt.one) ^ 2 := by
      rw [ieeeValue_eq_div hfmt]
      push_cast
      field_simp
      norm_num
    have hsq : (0 : ℚ) < (2 * fmt.one) ^ 2 := pow_pos hone2 2
    obtain ⟨hle, hge⟩ := hside d
    simp only [hmid, hvalue, div_pow, div_le_div_iff_of_pos_right hone2, div_le_div_iff_of_pos_right hsq]
    exact ⟨by exact_mod_cast hle, by exact_mod_cast hge⟩

/-- A root of +0 is +0 exactly. -/
theorem nearest_zero (hfmt : fmt.Regular) (p : Nat) : fmt.nearest p (fmt.ieeeValue 0) 0 := by
  have hzero : fmt.ieeeValue 0 = 0 := by simp [ieeeValue]
  refine ⟨Nat.zero_le _, fun d _ => ⟨fun h => absurd h d.not_lt_zero, fun _ => ?_, fun _ _ => rfl⟩⟩
  have := ieeeValue_nonneg hfmt d
  rw [hzero]
  positivity

/-- A square root is rounded once from the exact root. -/
theorem sqrt_rounds (hfmt : fmt.Regular) (hscale : 2 * (fmt.fracBits + 3) ≤ fmt.scale) {x : Nat}
    (hx : x < fmt.infBits) :
    ∃ m, fmt.sqrt (fmt.pack false x) = some (fmt.pack false m) ∧ fmt.nearest 2 (fmt.ieeeValue x) m := by
  rw [sqrt, unpack_pack false hx]
  rcases eq_or_ne x 0 with rfl | hx0
  · exact ⟨0, if_pos (magnitude_eq_zero.2 rfl), nearest_zero hfmt 2⟩
  · exact ⟨_, root_eq_round_rootHalves (mt magnitude_eq_zero.1 hx0), nearest_round_rootHalves hfmt hscale hx0⟩

end FloatFormat

/-- Settles O38: the scale of both formats leaves the root of every positive number more bits than the fraction holds. -/
theorem squareRootsAreRounded : Obligations.SquareRootsAreRounded := by
  refine ⟨fun n => ?_, fun fmt hstd x hx => ?_⟩
  · rw [isqrt_eq_sqrt]
    exact ⟨Nat.sqrt_le n, Nat.lt_succ_sqrt n⟩
  · have hscale : 2 * (fmt.fracBits + 3) ≤ fmt.scale := by rcases hstd with rfl | rfl <;> decide
    exact FloatFormat.sqrt_rounds (FloatFormat.regular_of_standard hstd) hscale hx

end Sys2Proof.Machine
end

section
/-! PROOFS. The shifts and rotates (43_shift_logical.md R260 to R280). What the model computes of bit patterns is, at
every width and for every count, the number that the formulas of R260 give; byte and immediate counts differ only in the
range of the count. -/

namespace Sys2Proof.Machine

/-! ## The formulas of R260 -/

section
variable {n : Nat}

/-- shl: a count of the width or more leaves no bit. -/
theorem shiftLeft_eq_ofNat (x : BitVec n) (c : Nat) :
    x <<< c = BitVec.ofNat n (if c < n then x.toNat * 2 ^ c else 0) := by
  split
  · apply BitVec.eq_of_toNat_eq
    rw [BitVec.toNat_shiftLeft, BitVec.toNat_ofNat, Nat.shiftLeft_eq]
  · next h => exact BitVec.shiftLeft_eq_zero (not_lt.1 h)

/-- shr: a count of the width or more leaves no bit. -/
theorem ushiftRight_eq_ofNat (x : BitVec n) (c : Nat) :
    x >>> c = BitVec.ofNat n (if c < n then x.toNat / 2 ^ c else 0) := by
  split
  · rw [eq_ofNat_toNat (x >>> c), BitVec.toNat_ushiftRight, Nat.shiftRight_eq_div_pow]
  · next h => exact BitVec.ushiftRight_eq_zero (not_lt.1 h)

/-- The quotient of a number of m bits and a sign, rounded down, is its sign from 2^m on. -/
theorem ediv_two_pow_min {i : Int} {m : Nat} (hlo : -2 ^ m ≤ i) (hhi : i < 2 ^ m) (c : Nat) :
    i / 2 ^ min c m = i / 2 ^ c := by
  rcases le_total c m with h | h
  · rw [min_eq_left h]
  · have hpow : (2 : Int) ^ m ≤ 2 ^ c := pow_le_pow_right₀ (by decide) h
    rw [min_eq_right h]
    rcases lt_or_ge i 0 with hneg | hnonneg
    · rw [Int.ediv_eq_neg_one_of_neg_of_le hneg (by omega), Int.ediv_eq_neg_one_of_neg_of_le hneg (by omega)]
    · rw [Int.ediv_eq_zero_of_lt hnonneg hhi, Int.ediv_eq_zero_of_lt hnonneg (by omega)]

/-- sar: a count of the width or more leaves copies of the sign. -/
theorem sshiftRight_eq_ofInt (x : BitVec n) (c : Nat) :
    x.sshiftRight c = BitVec.ofInt n (x.toInt / 2 ^ min c (n - 1)) := by
  rw [ediv_two_pow_min (BitVec.le_toInt x) (BitVec.toInt_lt (x := x)), BitVec.sshiftRight, Int.shiftRight_eq_div_pow,
    Nat.cast_pow, Nat.cast_ofNat]

/-- rol: the bits shifted out at the top come in at the bottom, where the shift left zeros. -/
theorem rotateLeft_eq_ofNat (hn : 0 < n) (x : BitVec n) (c : Nat) :
    x.rotateLeft c = BitVec.ofNat n (x.toNat * 2 ^ (c % n) % 2 ^ n + x.toNat / 2 ^ (n - c % n)) := by
  have hsplit : 2 ^ n = 2 ^ (n - c % n) * 2 ^ (c % n) := by
    rw [← pow_add, Nat.sub_add_cancel (Nat.mod_lt c hn).le]
  have hlow : x.toNat / 2 ^ (n - c % n) < 2 ^ (c % n) := Nat.div_lt_of_lt_mul (hsplit ▸ x.isLt)
  have hhigh : x.toNat * 2 ^ (c % n) % 2 ^ n = x.toNat % 2 ^ (n - c % n) * 2 ^ (c % n) := by
    rw [hsplit, Nat.mul_mod_mul_right]
  rw [eq_ofNat_toNat (x.rotateLeft c), BitVec.toNat_rotateLeft, Nat.shiftLeft_eq, Nat.shiftRight_eq_div_pow, hhigh,
    ← Nat.shiftLeft_eq, Nat.shiftLeft_add_eq_or_of_lt hlow]

/-- A rotate to the right is the rotate to the left by what is missing to the width. -/
theorem rotateRight_eq_rotateLeft (hn : 0 < n) (x : BitVec n) (c : Nat) :
    x.rotateRight c = x.rotateLeft ((n - c % n) % n) := by
  have hc : c % n < n := Nat.mod_lt c hn
  rw [BitVec.rotateRight_def, BitVec.rotateLeft_def, Nat.mod_mod]
  rcases Nat.eq_zero_or_pos (c % n) with h | h
  · simp [h, BitVec.ushiftRight_eq_zero (le_refl n)]
  · rw [Nat.mod_eq_of_lt (by omega : n - c % n < n), Nat.sub_sub_self hc.le, BitVec.or_comm]

/-- ror, as the rol of R260. -/
theorem rotateRight_eq_ofNat (hn : 0 < n) (x : BitVec n) (c : Nat) :
    x.rotateRight c = BitVec.ofNat n (x.toNat * 2 ^ ((n - c % n) % n) % 2 ^ n +
      x.toNat / 2 ^ (n - (n - c % n) % n)) := by
  rw [rotateRight_eq_rotateLeft hn, rotateLeft_eq_ofNat hn, Nat.mod_mod]

end

/-! ## The instructions -/

/-- Settles O24: the instructions write what the model's shifts give, and these follow the formulas for every count. -/
theorem generalShiftsFollowTheirFormulas : Obligations.GeneralShiftsFollowTheirFormulas := by
  refine fun q r s v => ⟨fun hq => ?word, fun hq => ?long⟩
  case word =>
    have result {f : Byte → Word} {y : Word} := complete_setW_of_read hq (s := s) (len := 2 + q.extraBytes) (r := r)
      (f := f) (y := y)
    exact ⟨result (shiftLeft_eq_ofNat _ _), result (ushiftRight_eq_ofNat _ _), result (sshiftRight_eq_ofInt _ _),
      result (rotateLeft_eq_ofNat (by decide) _ _), result (rotateRight_eq_ofNat (by decide) _ _)⟩
  case long =>
    have result {f : Byte → Long} {y : Long} := complete_setL_of_read hq (s := s) (len := 2 + q.extraBytes) (r := r)
      (f := f) (y := y)
    exact ⟨result (shiftLeft_eq_ofNat _ _), result (ushiftRight_eq_ofNat _ _), result (sshiftRight_eq_ofInt _ _),
      result (rotateLeft_eq_ofNat (by decide) _ _), result (rotateRight_eq_ofNat (by decide) _ _)⟩

/-- Settles O25: an immediate count is below 32, where the formulas for a long neither cut it off nor reduce it. -/
theorem immediateShiftsFollowTheirFormulas : Obligations.ImmediateShiftsFollowTheirFormulas := by
  intro sc r s c w l x y
  have hmod : c % 32 = c := Nat.mod_eq_of_lt sc.isLt
  have hmin : min c 31 = c := min_eq_left (Nat.le_of_lt_succ sc.isLt)
  have shl := shiftLeft_eq_ofNat (s.L r) c
  have shr := ushiftRight_eq_ofNat (s.L r) c
  have sar := sshiftRight_eq_ofInt (s.L r) c
  have rol := rotateLeft_eq_ofNat (by decide) (s.L r) c
  have ror := rotateRight_eq_ofNat (by decide) (s.L r) c
  rw [if_pos sc.isLt] at shl shr
  rw [hmin] at sar
  rw [hmod] at rol ror
  exact ⟨congrArg w (shiftLeft_eq_ofNat _ _), congrArg w (ushiftRight_eq_ofNat _ _),
    congrArg w (sshiftRight_eq_ofInt _ _), congrArg w (rotateLeft_eq_ofNat (by decide) _ _),
    congrArg w (rotateRight_eq_ofNat (by decide) _ _), congrArg l shl, congrArg l shr, congrArg l sar,
    congrArg l rol, congrArg l ror⟩

end Sys2Proof.Machine
end

section
/-! PROOFS. The compares (44_convert_compare.md R320 to R326). A fixed-point compare writes `icmp` of the register and the
operand, a floating one the flag of an order. The floating order is read off the patterns: with its sign each pattern up
to infinity is an integer, and the values stand in the order of these integers. -/

namespace Sys2Proof.Machine

/-! ## Fixed-point compares -/

/-- The five patterns of a fixed-point compare, by the unsigned and the signed order (44_convert_compare.md R320). -/
theorem icmp_eq_ite {n : Nat} (a b : BitVec n) :
    icmp a b = if a.toNat = b.toNat then 4 else if a.toNat < b.toNat then (if a.toInt < b.toInt then 24 else 18)
      else (if a.toInt < b.toInt then 9 else 3) := by
  simp only [icmp, BitVec.toNat_eq, BitVec.ult_iff_lt, BitVec.lt_def, BitVec.slt_iff_toInt_lt]
  split
  · rfl
  · split <;> split <;> rfl

/-- Settles O30: the byte forms compare the low byte of the register. -/
theorem integerComparePatterns : Obligations.IntegerComparePatterns := by
  intro r s
  refine ⟨fun q v hq => ?word, fun q v hq => ?long, fun q v hq => ?byteW, fun q v hq => ?byteL⟩
  case word => exact complete_setFlags_of_read hq (icmp_eq_ite _ _)
  case long => exact complete_setFlags_of_read hq (icmp_eq_ite _ _)
  case byteW => exact complete_setFlags_of_read hq (by rw [← BitVec.ofNat_toNat]; exact icmp_eq_ite _ _)
  case byteL => exact complete_setFlags_of_read hq (by rw [← BitVec.ofNat_toNat]; exact icmp_eq_ite _ _)

/-! ## Floating compares -/

/-- A compare that reads its operand writes the flag of the order, and the flag of some order, a free value, where there
is none (44_convert_compare.md R320; log 11). -/
theorem complete_setOrdering_of_read {α : Type} {x : Except Fault α} {v : α} (hx : x = .ok v) (s : State) (len : Nat)
    (f : α → Option Ordering) :
    let out := complete s len (do let a ← x; return s.setOrdering (f a))
    (f v = some .lt → out = flagsResult s len 8) ∧ (f v = some .eq → out = flagsResult s len 4) ∧
    (f v = some .gt → out = flagsResult s len 2) ∧
    (f v = none → ∃ y, (y = 2 ∨ y = 4 ∨ y = 8) ∧
      out = flagsResult { s with freeCount := s.freeCount + 1 } len y) := by
  intro out
  have hout : out = .next ((s.setOrdering (f v)).setPc (s.npc len)) := by
    subst hx
    rfl
  have hflags : ∀ o, orderingFlags o = 2 ∨ orderingFlags o = 4 ∨ orderingFlags o = 8 := by decide
  rw [hout]
  cases f v with
  | some o =>
    refine ⟨?_, ?_, ?_, nofun⟩ <;>
    · rintro ⟨⟩
      rfl
  | none => exact ⟨nofun, nofun, nofun, fun _ => ⟨_, hflags _, rfl⟩⟩

/-- Settles O32. The two compares differ in the format of their operands alone. -/
theorem floatComparesSetOneFlag : Obligations.FloatComparesSetOneFlag :=
  fun r s =>
    ⟨fun _ _ hq => complete_setOrdering_of_read hq s _ fun a => single.cmp (s.F r).toNat a.toNat,
      fun _ _ hq => complete_setOrdering_of_read hq s _ fun a => double.cmp (s.D r).toNat a.toNat⟩

/-! ## The floating order -/

theorem FloatValue.order_eq_none_iff {v w : FloatValue} : v.order w = none ↔ v = .nan ∨ w = .nan := by
  cases v <;> cases w <;> simp [FloatValue.order]

@[simp] theorem signedMag_false (x : Nat) : signedMag false x = x := rfl

@[simp] theorem signedMag_true (x : Nat) : signedMag true x = -x := rfl

/-- A measure that rises from 0 orders numbers with signs as the numbers themselves. -/
theorem compare_signedMag_map {f : Nat → Nat} (hf : StrictMono f) (hzero : f 0 = 0) (c d : Bool) (a b : Nat) :
    compare (signedMag c (f a)) (signedMag d (f b)) = compare (signedMag c a) (signedMag d b) := by
  have hlt (c d : Bool) (a b : Nat) :
      signedMag c (f a) < signedMag d (f b) ↔ signedMag c a < signedMag d b := by
    have hpos (x : Nat) : 0 < f x ↔ 0 < x := by
      have h := hf.lt_iff_lt (a := 0) (b := x)
      rwa [hzero] at h
    have hab := hf.lt_iff_lt (a := a) (b := b)
    have hba := hf.lt_iff_lt (a := b) (b := a)
    have ha := hpos a
    have hb := hpos b
    cases c <;> cases d <;> simp only [signedMag_false, signedMag_true] <;> omega
  rcases lt_trichotomy (signedMag c a) (signedMag d b) with h | h | h
  · rw [compare_lt_iff_lt.2 h, compare_lt_iff_lt.2 ((hlt c d a b).2 h)]
  · rw [compare_eq_iff_eq.2 h, compare_eq_iff_eq]
    have := hlt c d a b
    have := hlt d c b a
    omega
  · rw [compare_gt_iff_gt.2 h, compare_gt_iff_gt.2 ((hlt d c b a).2 h)]

namespace FloatFormat

variable {fmt : FloatFormat}

theorem unpack_eq_nan_iff {n : Nat} : fmt.unpack n = .nan ↔ fmt.infBits < n % fmt.signWeight := by
  simp only [unpack]
  split
  · next hfin => exact iff_of_false nofun hfin.not_gt
  · next hfin =>
    split
    · next hinf => exact iff_of_false nofun hinf.le.not_gt
    · next hinf => exact iff_of_true rfl (lt_of_le_of_ne (not_lt.1 hfin) (Ne.symm hinf))

theorem cmp_eq_none_iff {a b : Nat} :
    fmt.cmp a b = none ↔ fmt.infBits < a % fmt.signWeight ∨ fmt.infBits < b % fmt.signWeight := by
  rw [cmp, FloatValue.order_eq_none_iff, unpack_eq_nan_iff, unpack_eq_nan_iff]

theorem unpack_pack_infBits (neg : Bool) : fmt.unpack (fmt.pack neg fmt.infBits) = .inf neg := by
  rw [fmt.unpack_pack_eq_ite neg fmt.infBits_lt_signWeight, if_neg (lt_irrefl _), if_pos rfl]

/-- The magnitude of infinity is above those of all numbers. -/
theorem lt_signedMag_lt {x : Nat} (hx : x < fmt.infBits) (c : Bool) :
    -(fmt.magnitude fmt.infBits : Int) < signedMag c (fmt.magnitude x) ∧
      signedMag c (fmt.magnitude x) < fmt.magnitude fmt.infBits := by
  have := fmt.magnitude_strictMono hx
  cases c <;> simp only [signedMag_false, signedMag_true] <;> omega

/-- The patterns up to infinity, each with a sign, compare as the signed numbers they are written as. -/
theorem cmp_pack (hfmt : fmt.Regular) {a b : Nat} (c d : Bool) (ha : a ≤ fmt.infBits) (hb : b ≤ fmt.infBits) :
    fmt.cmp (fmt.pack c a) (fmt.pack d b) = some (compare (signedMag c a) (signedMag d b)) := by
  rw [← compare_signedMag_map fmt.magnitude_strictMono (magnitude_eq_zero.2 rfl), cmp]
  rcases ha.lt_or_eq with ha | rfl <;> rcases hb.lt_or_eq with hb | rfl
  · rw [unpack_pack c ha, unpack_pack d hb]
    rfl
  · rw [unpack_pack c ha, unpack_pack_infBits]
    obtain ⟨hlo, hhi⟩ := lt_signedMag_lt ha c
    cases d with
    | true => exact congrArg some (compare_gt_iff_gt.2 hlo).symm
    | false => exact congrArg some (compare_lt_iff_lt.2 hhi).symm
  · rw [unpack_pack_infBits, unpack_pack d hb]
    obtain ⟨hlo, hhi⟩ := lt_signedMag_lt hb d
    cases c with
    | true => exact congrArg some (compare_lt_iff_lt.2 hlo).symm
    | false => exact congrArg some (compare_gt_iff_gt.2 hhi).symm
  · obtain ⟨hneg, hpos⟩ := lt_signedMag_lt (infBits_pos hfmt) false
    have hinf := hneg.trans hpos
    rw [unpack_pack_infBits, unpack_pack_infBits]
    cases c <;> cases d
    · exact congrArg some (compare_eq_iff_eq.2 rfl).symm
    · exact congrArg some (compare_gt_iff_gt.2 hinf).symm
    · exact congrArg some (compare_lt_iff_lt.2 hinf).symm
    · exact congrArg some (compare_eq_iff_eq.2 rfl).symm

end FloatFormat

/-- Settles O33: the integers that the patterns with their signs are have the order stated. -/
theorem floatOrderIsThePatternOrder : Obligations.FloatOrderIsThePatternOrder := by
  intro fmt hstd
  have hfmt := FloatFormat.regular_of_standard hstd
  refine ⟨fun a b => FloatFormat.cmp_eq_none_iff, fun a b ha hb => ?_⟩
  have hcmp (c d : Bool) := FloatFormat.cmp_pack hfmt c d ha hb
  refine ⟨(hcmp false false).trans ?_, (hcmp true true).trans ?_, (hcmp true false).trans ?_,
    (hcmp false true).trans ?_⟩
  · rw [← cmp_eq_compare, ← cmp_eq_compare]
    exact congrArg some (Nat.strictMono_cast.cmp_map_eq a b)
  · have hanti : StrictAnti fun n : Nat => -(n : Int) := fun m n h => by simpa using h
    rw [← cmp_eq_compare, ← cmp_eq_compare]
    exact congrArg some (hanti.cmp_map_eq a b)
  · split
    · next hzero =>
      obtain ⟨rfl, rfl⟩ := hzero
      rfl
    · next hne => exact congrArg some (compare_lt_iff_lt.2 (by simp only [signedMag_false, signedMag_true]; omega))
  · split
    · next hzero =>
      obtain ⟨rfl, rfl⟩ := hzero
      rfl
    · next hne => exact congrArg some (compare_gt_iff_gt.2 (by simp only [signedMag_false, signedMag_true]; omega))

end Sys2Proof.Machine
end

section
/-! PROOFS. Rounding and the conversions between integers and floating values (44_convert_compare.md R300 to R317). On the
magnitudes of patterns, rounding is described by where its argument lies to their midpoints; a value with few enough bits
has a pattern of its own, to which it is converted exactly. -/

namespace Sys2Proof.Machine

namespace FloatFormat

variable {fmt : FloatFormat}

/-! ## Rounding -/

theorem round_le_infBits (fmt : FloatFormat) (num den : Nat) : fmt.round num den ≤ fmt.infBits := min_le_left _ _

/-- Where the argument of `round` lies to the midpoint of the answer and another pattern. -/
theorem round_midpoint (hfmt : fmt.Regular) (num : Nat) {den d : Nat} (hden : 0 < den) (hd : d ≤ fmt.infBits) :
    let b := fmt.round num den
    let twiceMid := fmt.magnitude d * den + fmt.magnitude b * den
    (d < b → twiceMid ≤ 2 * num) ∧ (b < d → 2 * num ≤ twiceMid) ∧ (d ≠ b → twiceMid = 2 * num → b % 2 = 0) := by
  intro b twiceMid
  have hden' : (0 : ℚ) < den := Nat.cast_pos.2 hden
  have hone := fmt.one_cast_pos
  have hunits : (0 : ℚ) < 2 * (fmt.one * den) := by positivity
  have hmid : ((fmt.ieeeValue d + fmt.ieeeValue b) / 2) ^ 1 = twiceMid / (2 * (fmt.one * den)) := by
    rw [ieeeValue_eq_div hfmt, ieeeValue_eq_div hfmt]
    push_cast [twiceMid]
    field_simp
  have hnum : (num : ℚ) / (fmt.one * den) = (2 * num : Nat) / (2 * (fmt.one * den)) := by
    push_cast
    field_simp
  obtain ⟨-, hnearest⟩ := nearest_round hfmt hden (div_mul_cancel₀ (num : ℚ) (mul_pos hone hden').ne')
  have h := hnearest d hd
  simp only [b, hnum] at h hmid
  simp only [hmid, div_le_div_iff_of_pos_right hunits, div_left_inj' hunits.ne', Nat.cast_le, Nat.cast_inj] at h
  exact h

/-- The pattern of a magnitude is what the magnitude is rounded to. -/
theorem round_magnitude_mul (hfmt : fmt.Regular) {b den : Nat} (hden : 0 < den) (hb : b ≤ fmt.infBits) :
    fmt.round (fmt.magnitude b * den) den = b := by
  obtain ⟨hbelow, habove, -⟩ := round_midpoint hfmt (fmt.magnitude b * den) hden hb
  have hmono {x y : Nat} (hxy : x < y) := Nat.mul_lt_mul_of_pos_right (fmt.magnitude_strictMono hxy) hden
  rcases lt_trichotomy b (fmt.round (fmt.magnitude b * den) den) with h | h | h
  · have := hbelow h
    have := hmono h
    omega
  · exact h.symm
  · have := habove h
    have := hmono h
    omega

theorem four_le_two_pow_expBits (hfmt : fmt.Regular) : 4 ≤ 2 ^ fmt.expBits :=
  Nat.pow_le_pow_right two_pos hfmt.two_le_expBits

/-- Infinity in the form of `magnitude_scaled`, a fraction that has overflowed. -/
theorem infBits_eq_scaled (hfmt : fmt.Regular) :
    fmt.infBits = (2 ^ fmt.expBits - 3) * 2 ^ fmt.fracBits + 2 * 2 ^ fmt.fracBits := by
  have := four_le_two_pow_expBits hfmt
  rw [infBits, ← Nat.add_mul]
  congr 1
  omega

/-- Infinity takes the power of two after the largest finite value. -/
theorem magnitude_infBits (hfmt : fmt.Regular) :
    fmt.magnitude fmt.infBits = 2 * 2 ^ fmt.fracBits * 2 ^ (2 ^ fmt.expBits - 3) := by
  rw [infBits_eq_scaled hfmt, magnitude_scaled (.inr (by omega)) le_rfl]

/-- The midpoint of the largest finite value and infinity is half a unit in the last place above the former. -/
theorem two_mul_overflow (hfmt : fmt.Regular) :
    2 * (fmt.magnitude (fmt.infBits - 1) + 2 ^ (2 ^ fmt.expBits - 4)) =
      fmt.magnitude (fmt.infBits - 1) + fmt.magnitude fmt.infBits := by
  have hexp : 2 ^ fmt.expBits - 3 = 2 ^ fmt.expBits - 4 + 1 := by
    have := four_le_two_pow_expBits hfmt
    omega
  obtain ⟨f, hf⟩ := Nat.exists_eq_add_of_le' (Nat.two_pow_pos fmt.fracBits)
  have hmax : fmt.magnitude (fmt.infBits - 1) = (2 * f + 1) * 2 ^ (2 ^ fmt.expBits - 3) := by
    have h := magnitude_scaled (fmt := fmt) (e := 2 ^ fmt.expBits - 3) (m := 2 * f + 1) (by omega) (by omega)
    rw [← h, infBits_eq_scaled hfmt, hf]
    rfl
  rw [hmax, magnitude_infBits hfmt, hf, hexp]
  ring

/-- The pattern of infinity is even, so the midpoint of it and the largest finite pattern rounds to infinity. -/
theorem infBits_mod_two (hfmt : fmt.Regular) : fmt.infBits % 2 = 0 :=
  Nat.mod_eq_zero_of_dvd (Dvd.dvd.mul_left (dvd_pow_self 2 (by have := hfmt.one_le_fracBits; omega)) _)

/-- `round` overflows from half a unit in the last place above the largest finite value on (44_convert_compare.md R300
item 3). -/
theorem round_eq_infBits_iff (hfmt : fmt.Regular) (num : Nat) {den : Nat} (hden : 0 < den) :
    fmt.round num den = fmt.infBits ↔
      (fmt.magnitude (fmt.infBits - 1) + 2 ^ (2 ^ fmt.expBits - 4)) * den ≤ num := by
  have hpos := infBits_pos hfmt
  have heven := infBits_mod_two hfmt
  have hmid := congrArg (· * den) (two_mul_overflow hfmt)
  simp only [Nat.mul_assoc, Nat.add_mul _ (fmt.magnitude fmt.infBits)] at hmid
  obtain ⟨hmax, -, -⟩ := round_midpoint hfmt num hden (Nat.sub_le fmt.infBits 1)
  obtain ⟨-, hinf, htie⟩ := round_midpoint hfmt num hden le_rfl
  constructor
  · intro h
    rw [h] at hmax
    have := hmax (by omega)
    omega
  · intro h
    by_contra hne
    have hlt : fmt.round num den < fmt.infBits := lt_of_le_of_ne (fmt.round_le_infBits num den) hne
    have hle := hinf hlt
    have hmono := Nat.mul_le_mul_right den (fmt.magnitude_strictMono.monotone (Nat.le_sub_one_of_lt hlt))
    have hroundEven := htie (Ne.symm hne) (by omega)
    have hbelow := Nat.mul_lt_mul_of_pos_right (fmt.magnitude_strictMono
      (show fmt.round num den < fmt.infBits - 1 by omega)) hden
    omega

end FloatFormat

/-- Of two numbers the one on the side of the midpoint where `n` lies is the nearer to `n`, and both are equally near on the
midpoint alone. -/
theorem natAbs_sub_le_of_midpoint {x y n : Nat} (h : y < x ∧ y + x ≤ 2 * n ∨ x < y ∧ 2 * n ≤ y + x) :
    ((x : Int) - n).natAbs ≤ ((y : Int) - n).natAbs ∧
      (((x : Int) - n).natAbs = ((y : Int) - n).natAbs → y + x = 2 * n) := by
  omega

/-- Settles O37: an error is compared with that of the answer by the midpoint of the two patterns. -/
theorem roundingIsToNearestEven : Obligations.RoundingIsToNearestEven := by
  intro fmt hstd num den hden b err
  have hfmt := FloatFormat.regular_of_standard hstd
  refine ⟨fun _ c hc hcb => ?_, FloatFormat.round_eq_infBits_iff hfmt num hden, fmt.round_le_infBits num den⟩
  obtain ⟨hbelow, habove, htie⟩ := FloatFormat.round_midpoint hfmt num hden hc.le
  have hmono {x y : Nat} (hxy : x < y) := Nat.mul_lt_mul_of_pos_right (fmt.magnitude_strictMono hxy) hden
  obtain ⟨hnear, hequal⟩ := natAbs_sub_le_of_midpoint <| (lt_or_gt_of_ne hcb).imp
    (fun h => ⟨hmono h, hbelow h⟩) (fun h => ⟨hmono h, habove h⟩)
  rw [Nat.cast_mul, Nat.cast_mul] at hnear hequal
  exact ⟨hnear, fun h => htie hcb (hequal h)⟩

/-! ## Values that have a pattern -/

namespace FloatFormat

variable {fmt : FloatFormat}

/-- A number of as many bits as the fraction and its leading bit has a pattern, whatever power of two it counts. -/
theorem exists_magnitude_eq {m : Nat} (hm : m < 2 * 2 ^ fmt.fracBits) (e : Nat) :
    ∃ b, fmt.magnitude b = m * 2 ^ e := by
  induction e generalizing m with
  | zero => exact ⟨_, magnitude_scaled (.inl rfl) hm.le⟩
  | succ e ih =>
    rcases Nat.lt_or_ge m (2 ^ fmt.fracBits) with hlt | hge
    · obtain ⟨b, hb⟩ := ih (m := 2 * m) (by omega)
      exact ⟨b, by rw [hb]; ring⟩
    · exact ⟨_, magnitude_scaled (.inr hge) hm.le⟩

/-- The pattern of a number is finite where the power of two is in the range of the exponents. -/
theorem exists_finite_magnitude_eq (hfmt : fmt.Regular) {m e : Nat} (hm : m < 2 * 2 ^ fmt.fracBits)
    (he : e + 3 ≤ 2 ^ fmt.expBits) : ∃ b < fmt.infBits, fmt.magnitude b = m * 2 ^ e := by
  obtain ⟨b, hb⟩ := exists_magnitude_eq hm e
  refine ⟨b, fmt.magnitude_strictMono.lt_iff_lt.1 ?_, hb⟩
  rw [hb, magnitude_infBits hfmt]
  exact Nat.mul_lt_mul_of_lt_of_le hm (Nat.pow_le_pow_right two_pos (by omega)) (Nat.two_pow_pos _)

/-- The magnitude of a finite pattern, as a number of the fraction's bits times a power of two. -/
theorem exists_scaled_of_unpack_eq_fin {n m : Nat} {neg : Bool} (h : fmt.unpack n = .fin neg m) :
    ∃ f e, m = f * 2 ^ e ∧ f < 2 * 2 ^ fmt.fracBits ∧ e < 2 ^ fmt.expBits := by
  simp only [unpack] at h
  split at h
  · next hfin =>
    obtain ⟨-, rfl⟩ := FloatValue.fin.inj h
    obtain ⟨e, f, hx, hlo, hhi⟩ := fmt.exists_scaled (n % fmt.signWeight)
    refine ⟨f, e, ?_, hhi, ?_⟩
    · rw [hx, magnitude_scaled hlo hhi.le]
    · by_contra hge
      have := Nat.mul_le_mul_right (2 ^ fmt.fracBits) (not_lt.1 hge)
      rw [infBits, Nat.sub_mul] at hfin
      omega
  · next hfin =>
    split at h <;> cases h

/-- An integer of few enough bits is converted to the pattern of its value. -/
theorem ofInt_exact (hfmt : fmt.Regular) (hscale : fmt.scale + 3 ≤ 2 ^ fmt.expBits) {i : Int}
    (hi : i.natAbs < 2 * 2 ^ fmt.fracBits) :
    ∃ b < fmt.infBits, fmt.magnitude b = i.natAbs * fmt.one ∧ fmt.ofInt i = fmt.pack (decide (i < 0)) b := by
  obtain ⟨b, hb, hmag⟩ := exists_finite_magnitude_eq hfmt hi hscale
  have hround := round_magnitude_mul hfmt one_pos hb.le
  rw [Nat.mul_one, hmag] at hround
  exact ⟨b, hb, hmag, congrArg (fmt.pack _) hround⟩

/-- A finite value that has a pattern in another format is converted to that pattern. -/
theorem convert_exact {src : FloatFormat} (hfmt : fmt.Regular) {a b m : Nat} {neg : Bool}
    (ha : src.unpack a = .fin neg m) (hb : b ≤ fmt.infBits) (hmag : fmt.magnitude b * src.one = m * fmt.one) :
    fmt.convert src a = some (fmt.pack neg b) := by
  simp only [convert, ha]
  rw [← hmag, round_magnitude_mul hfmt (den := src.one) (Nat.two_pow_pos _) hb]

/-- The unit of one format in that of another. -/
theorem one_eq_mul_one {src : FloatFormat} {k : Nat} (hscale : fmt.scale = k + src.scale) :
    fmt.one = 2 ^ k * src.one := by
  rw [one, one, hscale, Nat.pow_add]

theorem pack_lt {x : Nat} (neg : Bool) (hx : x < fmt.signWeight) : fmt.pack neg x < 2 * fmt.signWeight := by
  cases neg <;> simp only [pack, if_true, Bool.false_eq_true, if_false] <;> omega

end FloatFormat

/-- A double register holds every pattern of its format. -/
theorem toNat_ofNat_pack_double {x : Nat} (neg : Bool) (hx : x ≤ double.infBits) :
    (BitVec.ofNat 64 (double.pack neg x)).toNat = double.pack neg x :=
  Nat.mod_eq_of_lt (FloatFormat.pack_lt neg (hx.trans_lt double.infBits_lt_signWeight))

/-- An integer of up to 53 bits is converted to the double of its value. -/
theorem unpack_ofInt_double {i : Int} (hi : i.natAbs < 2 ^ 53) :
    double.unpack (BitVec.ofNat 64 (double.ofInt i)).toNat = .fin (decide (i < 0)) (i.natAbs * double.one) := by
  have hdouble := FloatFormat.regular_of_standard (.inr rfl : double = single ∨ double = double)
  obtain ⟨b, hb, hmag, hofInt⟩ := FloatFormat.ofInt_exact hdouble (by decide) hi
  rw [hofInt, toNat_ofNat_pack_double _ hb.le, FloatFormat.unpack_pack _ hb, hmag]

/-- A finite float is converted to the double of its value, 2^925 times as many of the smaller units. -/
theorem convert_single_to_double {n m : Nat} {neg : Bool} (h : single.unpack n = .fin neg m) :
    ∃ b < double.infBits, double.convert single n = some (double.pack neg b) ∧ double.magnitude b = m * 2 ^ 925 := by
  have hdouble := FloatFormat.regular_of_standard (.inr rfl : double = single ∨ double = double)
  obtain ⟨f, e, rfl, hf, he⟩ := FloatFormat.exists_scaled_of_unpack_eq_fin h
  have hf' : f < 2 * 2 ^ double.fracBits := hf.trans (by decide)
  have he' : e + 925 + 3 ≤ 2 ^ double.expBits := by
    have : e < 256 := he
    change e + 925 + 3 ≤ 2048
    omega
  obtain ⟨b, hb, hmag⟩ := FloatFormat.exists_finite_magnitude_eq hdouble hf' he'
  have hones := FloatFormat.one_eq_mul_one (fmt := double) (src := single) (k := 925) (by decide)
  rw [pow_add, ← Nat.mul_assoc] at hmag
  refine ⟨b, hb, FloatFormat.convert_exact hdouble h hb.le ?_, hmag⟩
  rw [hmag, hones, Nat.mul_assoc]

/-- Settles O39. A long has 32 bits, a float 24. -/
theorem conversionsToDoubleAreExact : Obligations.ConversionsToDoubleAreExact := by
  refine ⟨fun q r s v hq => ?long, fun x => ⟨fun h => ?nan, fun neg h => ?inf, fun neg m h => ?fin⟩⟩
  case long =>
    have hnat := v.isLt
    have hlo := BitVec.le_toInt v
    have hhi := BitVec.toInt_lt (x := v)
    have hunsigned := unpack_ofInt_double (i := v.toNat) (by omega)
    rw [Int.natAbs_natCast, decide_eq_false (by omega)] at hunsigned
    exact ⟨complete_setF_of_read hq rfl, complete_setF_of_read hq rfl, ⟨_, complete_setD_of_read hq rfl, hunsigned⟩,
      ⟨_, complete_setD_of_read hq rfl, unpack_ofInt_double (by omega)⟩⟩
  case nan => simp only [FloatFormat.convert, h]
  case inf =>
    refine ⟨BitVec.ofNat 64 (double.pack neg double.infBits), ?_, ?_⟩
    · simp only [FloatFormat.convert, h, toNat_ofNat_pack_double neg le_rfl]
    · rw [toNat_ofNat_pack_double neg le_rfl, FloatFormat.unpack_pack_infBits]
  case fin =>
    obtain ⟨b, hb, hconvert, hmag⟩ := convert_single_to_double h
    refine ⟨BitVec.ofNat 64 (double.pack neg b), ?_, ?_⟩
    · rw [hconvert, toNat_ofNat_pack_double neg hb.le]
    · rw [toNat_ofNat_pack_double neg hb.le, FloatFormat.unpack_pack neg hb, hmag]

/-! ## Truncation -/

/-- A truncating conversion that reads its operand writes the integer part where the range holds it, and some long, a free
value, where it does not or there is none (44_convert_compare.md R312 to R315; log 10). -/
theorem complete_putTrunc_of_read {α : Type} {x : Except Fault α} {v : α} (hx : x = .ok v) (s : State) (len : Nat)
    (r : Reg) (lo hi : Int) (f : α → Option Int) :
    let out := complete s len (do let a ← x; return s.putTrunc r lo hi (f a))
    (∀ i, f v = some i → lo ≤ i → i ≤ hi → out = longResult s len r (BitVec.ofInt 32 i)) ∧
    ((∀ i, f v = some i → ¬ (lo ≤ i ∧ i ≤ hi)) →
      ∃ y, out = longResult { s with freeCount := s.freeCount + 1 } len r y) := by
  intro out
  have hout : out = .next ((s.putTrunc r lo hi (f v)).setPc (s.npc len)) := by
    subst hx
    rfl
  rw [hout]
  refine ⟨fun i hi hlo hhi => ?inRange, fun hnot => ⟨freeLong s.freeCount, ?free⟩⟩
  case inRange =>
    simp only [hi, State.putTrunc, if_pos (And.intro hlo hhi)]
    rfl
  case free =>
    cases hv : f v with
    | none => rfl
    | some i =>
      simp only [State.putTrunc, if_neg (hnot i hv)]
      rfl

namespace FloatFormat

variable {fmt : FloatFormat} {a : Nat}

/-- The integer part of a finite value, by its magnitude, and the sign of the value. -/
theorem trunc_eq_some {i : Int} (h : fmt.trunc a = some i) :
    ∃ neg m, fmt.unpack a = .fin neg m ∧ i = signedMag neg (m / fmt.one) := by
  unfold trunc at h
  split at h
  · cases h
  · cases h
  · next neg m hfin => exact ⟨neg, m, hfin, (Option.some.inj h).symm⟩

theorem trunc_eq_none_iff : fmt.trunc a = none ↔ ∀ neg m, fmt.unpack a ≠ .fin neg m := by
  unfold trunc
  cases fmt.unpack a <;> simp

end FloatFormat

theorem natAbs_signedMag (neg : Bool) (x : Nat) : (signedMag neg x).natAbs = x := by
  cases neg <;> simp

/-- Settles O40: the four instructions differ in format and range alone. -/
theorem truncatingConversions : Obligations.TruncatingConversions := by
  refine ⟨fun q r s v hq => ?float, fun q r s v hq => ?double, fun fmt a i h => ?some,
    fun fmt a => FloatFormat.trunc_eq_none_iff⟩
  case float =>
    have result (lo hi : Int) := complete_putTrunc_of_read hq s (2 + q.extraBytes) r lo hi (fun a => single.trunc a.toNat)
    exact ⟨result _ _, result _ _⟩
  case double =>
    have result (lo hi : Int) := complete_putTrunc_of_read hq s (2 + q.extraBytes) r lo hi (fun a => double.trunc a.toNat)
    exact ⟨result _ _, result _ _⟩
  case some =>
    obtain ⟨neg, m, hunpack, rfl⟩ := FloatFormat.trunc_eq_some h
    have hone : 0 < fmt.one := Nat.two_pow_pos _
    refine ⟨neg, m, hunpack, ?_, ?_, ?_, ?_⟩
    · rw [natAbs_signedMag]
      exact Nat.div_mul_le_self m fmt.one
    · rw [natAbs_signedMag]
      exact Nat.lt_mul_of_div_lt (Nat.lt_succ_self _) hone
    · rintro rfl
      exact neg_nonpos.2 (Nat.cast_nonneg _)
    · rintro rfl
      exact Nat.cast_nonneg _

end Sys2Proof.Machine
end

section
/-! PROOFS. The special cases of floating arithmetic (44_convert_compare.md R300 items 1, 4 and 5; log 13). Each operation is
a function of the values its operands have, and the patterns of zeros, infinities and NaNs have one value each. -/

namespace Sys2Proof.Machine

namespace FloatFormat

variable {fmt : FloatFormat}

/-! ## Zeros -/

theorem round_zero (hfmt : fmt.Regular) {den : Nat} (hden : 0 < den) : fmt.round 0 den = 0 := by
  have h := round_magnitude_mul hfmt hden (Nat.zero_le fmt.infBits)
  rwa [magnitude_eq_zero.2 rfl, Nat.zero_mul] at h

theorem unpack_pack_zero (hfmt : fmt.Regular) (neg : Bool) : fmt.unpack (fmt.pack neg 0) = .fin neg 0 := by
  rw [unpack_pack neg (infBits_pos hfmt), magnitude_eq_zero.2 rfl]

/-- The sum of a number and its negative is +0. -/
theorem sum_fin_not (hfmt : fmt.Regular) (a : Bool) (m : Nat) : fmt.sum (.fin a m) (.fin (!a) m) = some 0 := by
  have hzero : signedMag a m + signedMag (!a) m = 0 := by cases a <;> simp
  simp only [sum, hzero, if_true, Bool.and_not_self, Int.natAbs_zero, round_zero hfmt one_pos]
  rfl

/-! ## NaN operands -/

theorem sum_nan_right (v : FloatValue) : fmt.sum v .nan = none := by cases v <;> rfl

theorem product_nan_right (v : FloatValue) : fmt.product v .nan = none := by cases v <;> rfl

theorem quotient_nan_right (v : FloatValue) : fmt.quotient v .nan = none := by cases v <;> rfl

/-- No operation on a NaN has a value (44_convert_compare.md R300 item 5). -/
theorem operations_of_nan {n : Nat} (hn : fmt.unpack n = .nan) (z : Nat) :
    fmt.add n z = none ∧ fmt.add z n = none ∧ fmt.sub n z = none ∧ fmt.sub z n = none ∧
      fmt.mul n z = none ∧ fmt.mul z n = none ∧ fmt.div n z = none ∧ fmt.div z n = none ∧ fmt.sqrt n = none := by
  simp only [add, sub, mul, div, sqrt, hn]
  exact ⟨rfl, sum_nan_right _, rfl, sum_nan_right _, rfl, product_nan_right _, rfl, quotient_nan_right _, rfl⟩

end FloatFormat

/-- Settles O41: with the values of its operands written in, each clause is a case of the operation's definition. -/
theorem floatSpecialCases : Obligations.FloatSpecialCases := by
  intro fmt hstd inf zero
  have hfmt := FloatFormat.regular_of_standard hstd
  have hinf (c : Bool) : fmt.unpack (inf c) = .inf c := FloatFormat.unpack_pack_infBits c
  have hzero (c : Bool) : fmt.unpack (zero c) = .fin c 0 := FloatFormat.unpack_pack_zero hfmt c
  refine ⟨fun a b x hx => ?finite, fun a b => ?infinite, fun n => FloatFormat.unpack_eq_nan_iff,
    fun n z hn => FloatFormat.operations_of_nan hn z, fun dst _ => ⟨fun n hn => ?nan, fun a => ?convert⟩⟩
  case finite =>
    intro fin
    have hfin (c : Bool) : fmt.unpack (fin c) = .fin c (fmt.magnitude x) := FloatFormat.unpack_pack c hx
    have hne : x ≠ 0 → fmt.magnitude x ≠ 0 := mt FloatFormat.magnitude_eq_zero.1
    simp only [FloatFormat.add, FloatFormat.sub, FloatFormat.mul, FloatFormat.div, FloatFormat.sqrt, hinf, hzero, hfin]
    exact ⟨FloatFormat.sum_fin_not hfmt a _, FloatFormat.sum_fin_not hfmt a _, fun hx0 => if_neg (hne hx0),
      fun hx0 => if_neg (hne hx0), rfl, rfl, rfl, rfl, fun hx0 => ⟨if_neg (hne hx0), if_neg (hne hx0)⟩, rfl, rfl⟩
  case infinite =>
    simp only [FloatFormat.add, FloatFormat.sub, FloatFormat.mul, FloatFormat.div, FloatFormat.sqrt, hinf, hzero]
    have hsub : fmt.sum (.inf a) (FloatValue.inf b).neg = if a = b then none else some (inf a) := by
      cases a <;> cases b <;> rfl
    have hsqrt : fmt.root (.inf a) = if a then none else some (inf a) := by cases a <;> rfl
    exact ⟨rfl, hsub, rfl, rfl, rfl, rfl, rfl, rfl, hsqrt⟩
  case nan => simp only [FloatFormat.convert, hn]
  case convert => simp only [FloatFormat.convert, hinf]

end Sys2Proof.Machine
end

section
/-! PROOFS. Jumps, calls and returns, entering and leaving a function, single pushes and pops, halt and nop
(45_control_stack_misc.md R342 to R359, R362, R364, R365). Each ends in one of the shared operations over memory and the
stack, whose outcome the bounds decide: what it stores and reads where its bytes are in memory, and MemoryBounds where
they are not. -/

namespace Sys2Proof.Machine

/-! ## Encodings -/

/-- The b1 format holds its byte as it is (30_encoding.md R128). -/
theorem decodeB1_toNat (b : Byte) (mk : Byte → Instr) : decodeB1 b.toNat mk = .ok (mk b) := by
  rw [decodeB1, BitVec.ofNat_toNat, BitVec.setWidth_eq]
  rfl

/-- The n0 format is refused unless its second byte is zero (30_encoding.md R130). -/
theorem decodeN0_toNat (b : Byte) (i : Instr) :
    decodeN0 b.toNat i = if b = 0 then .ok i else .error .reserved :=
  if_congr (BitVec.toNat_eq (y := 0)).symm rfl rfl

/-- The a3 format holds its 24-bit field lowest byte first (30_encoding.md R127). -/
theorem decodeA3_toNat (op a b c : Byte) (rest : List Byte) (mk : BitVec 24 → Instr) :
    decodeA3 (op :: a :: b :: c :: rest) a.toNat mk = .ok (mk (c ++ b ++ a)) := by
  have hfield : field 2 2 (op :: a :: b :: c :: rest) = .ok (b.toNat + 256 * c.toNat) := by simp [field, leNat]
  have hbytes : BitVec.ofNat 24 (a.toNat + 256 * (b.toNat + 256 * c.toNat)) = c ++ b ++ a := by
    apply BitVec.eq_of_toNat_eq
    have ha := a.isLt
    have hb := b.isLt
    have hc := c.isLt
    rw [BitVec.toNat_ofNat, BitVec.toNat_append, BitVec.toNat_append, ← Nat.shiftLeft_add_eq_or_of_lt ha,
      ← Nat.shiftLeft_add_eq_or_of_lt hb, Nat.shiftLeft_eq, Nat.shiftLeft_eq]
    omega
  rw [decodeA3, hfield, ok_bind, hbytes, pure_eq_ok]

/-! ## Outcomes -/

theorem finish_of_error {s : State} {r : Result} {x : Fault} (h : r = .error x) : finish s r = trap s x := by
  rw [h]
  rfl

theorem complete_of_error {s : State} {n : Nat} {r : Result} {x : Fault} (h : r = .error x) :
    complete s n r = trap s x := by
  rw [h]
  rfl

theorem finish_of_ok {s t : State} {r : Result} (h : r = .ok t) : finish s r = .next t := by
  rw [h]
  rfl

theorem complete_of_ok {s t : State} {n : Nat} {r : Result} (h : r = .ok t) :
    complete s n r = .next (t.setPc (s.npc n)) := by
  rw [h]
  rfl

/-- Twice an offset field, as a number modulo 2^32 (45_control_stack_misc.md R342 to R344). -/
theorem two_mul_setWidth {n : Nat} (off : BitVec n) : 2 * off.setWidth 32 = BitVec.ofNat 32 (2 * off.toNat) := by
  rw [BitVec.ofNat_mul, BitVec.ofNat_toNat]
  rfl

@[simp] theorem ok_bind_fault {α β : Type} (a : α) (f : α → Except Fault β) : Except.ok a >>= f = f a := rfl

/-! ## What the stack operations raise -/

section
variable {s : State} {n v : Nat} {stkc : Byte} {x : Fault}

/-- A push raises MemoryBounds exactly where the bytes below sp are not all in memory. -/
theorem State.push_eq_error :
    s.push n v = .error x ↔ s.params.memSize < (s.sp - BitVec.ofNat 32 n).toNat + n ∧
      x = .memoryBounds (s.sp - BitVec.ofNat 32 n).toNat := by
  rw [State.push, bind_eq_error, State.memWrite_eq_error]
  exact or_iff_left nofun

/-- enter raises MemoryBounds exactly where its push does. -/
theorem State.enterFrame_eq_error :
    s.enterFrame stkc = .error x ↔
      s.params.memSize < (s.sp - 4).toNat + 4 ∧ x = .memoryBounds (s.sp - 4).toNat := by
  rw [State.enterFrame, bind_eq_error, State.memWrite_eq_error]
  exact or_iff_left nofun

/-- ret raises MemoryBounds exactly where the long at sp is not in memory. -/
theorem State.returnFrame_eq_error :
    s.returnFrame stkc = .error x ↔ s.params.memSize < s.sp.toNat + 4 ∧ x = .memoryBounds s.sp.toNat := by
  rw [State.returnFrame, bind_eq_error, State.top, State.memRead_eq_error]
  exact or_iff_left nofun

/-- leave raises MemoryBounds for the saved fp, or else for the return address. -/
theorem State.leaveFrame_eq_error :
    s.leaveFrame stkc = .error x ↔
      (s.params.memSize < s.fp.toNat + 4 ∧ x = .memoryBounds s.fp.toNat) ∨
      s.fp.toNat + 4 ≤ s.params.memSize ∧ s.params.memSize < (s.fp + 4).toNat + 4 ∧
        x = .memoryBounds (s.fp + 4).toNat := by
  rw [State.leaveFrame, bind_eq_error, State.memRead_eq_error]
  refine or_congr_right ⟨?_, ?_⟩
  · rintro ⟨f, hf, h⟩
    obtain ⟨hfit, -⟩ := State.memRead_eq_ok.1 hf
    rcases bind_eq_error.1 h with h | ⟨p, -, h⟩
    · exact ⟨hfit, State.memRead_eq_error.1 h⟩
    · exact nomatch h
  · rintro ⟨hfit, h⟩
    exact ⟨_, State.memRead_eq_ok.2 ⟨hfit, rfl⟩, bind_eq_error.2 (.inl (State.memRead_eq_error.2 h))⟩

/-- A taken call is a push of the next address, then a jump. -/
theorem State.callTo_eq_map (npc target : Long) :
    s.callTo npc target = (s.push 4 npc.toNat).map fun t => t.setPc target := by
  rw [State.callTo]
  cases s.push 4 npc.toNat <;> rfl

/-- What is left after a push that fits, and a pc set. -/
theorem pushResult_push (w : s.mem.wf) (hfit : (s.sp - BitVec.ofNat 32 n).toNat + n ≤ s.params.memSize)
    (target : Long) : pushResult s n v target (finish s ((s.push n v).map fun t => t.setPc target)) := by
  rw [State.push_eq_ok.2 ⟨hfit, rfl⟩]
  exact ⟨_, rfl, State.storedAt_setMem_writeLE w _ _ _, rfl⟩

/-- A push that does not fit. -/
theorem trap_push (hpast : s.params.memSize < (s.sp - BitVec.ofNat 32 n).toNat + n) (f : State → State) :
    finish s ((s.push n v).map f) = trap s (.memoryBounds (s.sp - BitVec.ofNat 32 n).toNat) := by
  rw [State.push_eq_error.2 ⟨hpast, rfl⟩]
  rfl

end

/-! ## Jumps and calls -/

section
variable {c : Cond} {j : JOp} {s : State}

theorem exec_jump_of_not (hc : condHolds s.flags c = false) :
    exec (.jump c j) s = pcResult s (s.npc (2 + j.extraBytes)) := by
  change execJump c j s = _
  simp only [execJump, hc, Bool.false_eq_true, if_false]
  rfl

theorem exec_jump_of_target (hc : condHolds s.flags c = true) {t : Long}
    (ht : j.target (s.npc (2 + j.extraBytes)) s = .ok t) : exec (.jump c j) s = pcResult s t := by
  change execJump c j s = _
  simp only [execJump, hc, if_true, ht]
  rfl

theorem exec_jump_of_target_error (hc : condHolds s.flags c = true) {x : Fault}
    (ht : j.target (s.npc (2 + j.extraBytes)) s = .error x) : exec (.jump c j) s = trap s x := by
  change execJump c j s = _
  simp only [execJump, hc, if_true, ht]
  rfl

theorem exec_call_of_not (hc : condHolds s.flags c = false) :
    exec (.call c j) s = pcResult s (s.npc (2 + j.extraBytes)) := by
  change execCall c j s = _
  simp only [execCall, hc, Bool.false_eq_true, if_false]
  rfl

theorem exec_call_of_target (hc : condHolds s.flags c = true) {t : Long}
    (ht : j.target (s.npc (2 + j.extraBytes)) s = .ok t) :
    exec (.call c j) s = finish s (s.callTo (s.npc (2 + j.extraBytes)) t) := by
  change execCall c j s = _
  simp only [execCall, hc, if_true, ht]
  rfl

theorem exec_call_of_target_error (hc : condHolds s.flags c = true) {x : Fault}
    (ht : j.target (s.npc (2 + j.extraBytes)) s = .error x) : exec (.call c j) s = trap s x := by
  change execCall c j s = _
  simp only [execCall, hc, if_true, ht]
  rfl

/-- The targets of callf and callb as numbers (45_control_stack_misc.md R346, R347). -/
theorem exec_callf (s : State) (off : BitVec 24) :
    exec (.callf off) s = finish s (s.callTo (s.pc + 4) (s.pc + 4 + BitVec.ofNat 32 (2 * off.toNat))) := by
  rw [← two_mul_setWidth]
  rfl

theorem exec_callb (s : State) (off : BitVec 24) :
    exec (.callb off) s = finish s (s.callTo (s.pc + 4) (s.pc + 4 - BitVec.ofNat 32 (2 * off.toNat))) := by
  rw [← two_mul_setWidth]
  rfl

/-- A j-operand that holds the address of its target reads a long there, or takes MemoryBounds
(30_encoding.md R125, R126). -/
theorem target_of_memRead {npc a : Long} (hj : j.target npc s = (s.memRead a 4).map (BitVec.ofNat 32)) :
    (a.toNat + 4 ≤ s.params.memSize → j.target npc s = .ok (BitVec.ofNat 32 (s.mem.readLE a.toNat 4))) ∧
      (s.params.memSize < a.toNat + 4 → j.target npc s = .error (.memoryBounds a.toNat)) := by
  refine ⟨fun hfit => ?_, fun hpast => ?_⟩
  · rw [hj, State.memRead_eq_ok.2 ⟨hfit, rfl⟩]
    rfl
  · rw [hj, State.memRead_eq_error.2 ⟨hpast, rfl⟩]
    rfl

end

/-- Settles O46, by the form of the j-operand. -/
theorem jumpResults : Obligations.JumpResults := by
  intro s c k off a
  refine ⟨fun hc j => exec_jump_of_not hc, fun hc => ?_⟩
  intro x
  obtain ⟨hload, hloadPast⟩ := target_of_memRead (j := .jmemai a) (npc := s.npc 6) (s := s) (a := a) rfl
  have hslot : (JOp.sprmi off).target (s.npc 4) s = (s.memRead x 4).map (BitVec.ofNat 32) := by
    rw [JOp.target, two_mul_setWidth]
  obtain ⟨hstack, hstackPast⟩ := target_of_memRead hslot
  refine ⟨exec_jump_of_target hc rfl, exec_jump_of_target hc ?pcrp, exec_jump_of_target hc ?pcrm,
    exec_jump_of_target hc rfl, fun h => exec_jump_of_target hc (hload h),
    fun h => exec_jump_of_target_error hc (hloadPast h), fun h => exec_jump_of_target hc (hstack h),
    fun h => exec_jump_of_target_error hc (hstackPast h)⟩
  case pcrp =>
    rw [JOp.target_pcrp, two_mul_setWidth]
    rfl
  case pcrm =>
    rw [JOp.target_pcrm, two_mul_setWidth]
    rfl

/-- Settles O47: the two targets are the integers of R343 and R344 modulo 2^32. -/
theorem jumpForwardAndBackward : Obligations.JumpForwardAndBackward := by
  refine ⟨fun a b c rest => ⟨?forward, ?backward⟩, fun s off => ?_⟩
  case forward => exact (decode_of_mnemonicOf (m := .jumpf) rfl a _).trans (decodeA3_toNat _ a b c rest _)
  case backward => exact (decode_of_mnemonicOf (m := .jumpb) rfl a _).trans (decodeA3_toNat _ a b c rest _)
  have hforward : s.pc + 4 + 2 * off.setWidth 32 = BitVec.ofNat 32 (s.pc.toNat + 4 + 2 * off.toNat) := by
    rw [two_mul_setWidth, BitVec.ofNat_add, BitVec.ofNat_add, ← eq_ofNat_toNat]
    rfl
  have hbackward : s.pc + 4 - 2 * off.setWidth 32 = BitVec.ofInt 32 (s.pc.toNat + 4 - 2 * off.toNat) := by
    refine sub_eq_ofInt ?_ ?_
    · rw [BitVec.ofInt_add, BitVec.ofInt_natCast, ← eq_ofNat_toNat]
      rfl
    · rw [two_mul_setWidth, ← BitVec.ofInt_natCast]
      rfl
  exact ⟨congrArg (pcResult s) hforward, congrArg (pcResult s) hbackward⟩

/-- Settles O48: a taken call is a push, and its target the one a jump goes to. -/
theorem callResults : Obligations.CallResults := by
  intro s w top
  have taken (npc target : Long) (hfit : top.toNat + 4 ≤ s.params.memSize) :
      pushResult s 4 npc.toNat target (finish s (s.callTo npc target)) := by
    rw [State.callTo_eq_map]
    exact pushResult_push w hfit target
  have untaken (npc target : Long) (hpast : s.params.memSize < top.toNat + 4) :
      finish s (s.callTo npc target) = trap s (.memoryBounds top.toNat) := by
    rw [State.callTo_eq_map]
    exact trap_push hpast _
  refine ⟨fun c j hc => exec_call_of_not hc,
    fun c j t hc ht hfit => ⟨exec_jump_of_target hc ht, exec_call_of_target hc ht ▸ taken _ t hfit⟩,
    fun c j x hc ht => ⟨exec_jump_of_target_error hc ht, exec_call_of_target_error hc ht⟩,
    fun off hfit => ⟨exec_callf s off ▸ taken _ _ hfit, exec_callb s off ▸ taken _ _ hfit⟩,
    fun hpast => ⟨fun c j t hc ht => (exec_call_of_target hc ht).trans (untaken _ t hpast),
      fun off => ⟨(exec_callf s off).trans (untaken _ _ hpast), (exec_callb s off).trans (untaken _ _ hpast)⟩⟩⟩

/-! ## Halt and nop -/

/-- Settles O52. -/
theorem haltAndNop : Obligations.HaltAndNop := by
  refine ⟨fun b rest => ⟨?halt, ?nop⟩, fun s => ⟨rfl, fun t ht => ?stays, rfl⟩⟩
  case halt => exact (decode_of_mnemonicOf (m := .halt) rfl b rest).trans (decodeN0_toNat b _)
  case nop => exact (decode_of_mnemonicOf (m := .nop) rfl b rest).trans (decodeN0_toNat b _)
  case stays =>
    obtain rfl : { s with pc := s.pc + 2, status := .halted } = t := Host.Outcome.next.inj ht
    rfl

/-! ## Returns -/

/-- Settles O49. -/
theorem returnResult : Obligations.ReturnResult :=
  ⟨fun stkc rest => (decode_of_mnemonicOf (m := .ret) rfl stkc rest).trans (decodeB1_toNat stkc _),
    fun _ _ => ⟨fun hfit => finish_of_ok (State.returnFrame_eq_ok.2 ⟨hfit, rfl⟩),
      fun hpast => finish_of_error (State.returnFrame_eq_error.2 ⟨hpast, rfl⟩)⟩⟩

/-! ## Single pushes and pops of a register -/

/-- The instruction that pushes a register pushes what it holds (45_control_stack_misc.md R352 to R355). -/
theorem exec_pushInstr (g : GReg) (s : State) : exec (pushInstr g) s = complete s 2 (s.push g.file.size (s.G g)) := by
  obtain ⟨file, k⟩ := g
  cases file <;> rfl

/-- The instruction that pops a register is a pop into it (45_control_stack_misc.md R356 to R359). -/
theorem exec_popInstr (g : GReg) (s : State) : exec (popInstr g) s = complete s 2 (s.popReg g) := by
  obtain ⟨file, k⟩ := g
  cases file <;> rfl

/-! ## Entering and leaving a function -/

section
variable (s : State)

theorem State.setL_setL_self (k : Reg) (u v : Long) : (s.setL k u).setL k v = s.setL k v := by
  simp [State.setL]

theorem State.setL_comm {j k : Reg} (h : j ≠ k) (u v : Long) :
    (s.setL j u).setL k v = (s.setL k v).setL j u := by
  have hne : j.val ≠ k.val := Fin.val_ne_of_ne h
  simp [State.setL, Vector.set_comm _ _ hne]

theorem State.setL_L_eq_self (k : Reg) : s.setL k (s.L k) = s := by
  simp [State.setL, State.L]

end

@[simp] theorem spReg_ne_fpReg : spReg ≠ fpReg := by decide

@[simp] theorem fpReg_ne_spReg : fpReg ≠ spReg := by decide

/-- States that agree outside the long registers, and on each of these, are equal. -/
theorem State.eq_of_longs {s t : State} (hrest : t = { s with l := t.l }) (hl : ∀ k, t.L k = s.L k) : t = s := by
  have h : t.l = s.l := Vector.ext fun i hi => hl ⟨i, hi⟩
  rw [hrest, h]

section
variable {s t : State} {n : Nat} {r : Result}

/-- An instruction that leaves no fault completed. -/
theorem ok_of_finish (h : finish s r = .next t) (ht : t.faulted = false) : r = .ok t := by
  rcases finish_eq_next.1 h with h | ⟨x, -, rfl⟩
  · exact h
  · exact nomatch ht

theorem ok_of_complete (h : complete s n r = .next t) (ht : t.faulted = false) :
    ∃ u, r = .ok u ∧ t = u.setPc (s.npc n) := by
  rcases complete_eq_next.1 h with h | ⟨x, -, rfl⟩
  · exact h
  · exact nomatch ht

end

/-- Settles O50. The three instructions write sp and fp in the other order. -/
theorem enterResult : Obligations.EnterResult := by
  refine ⟨fun stkc rest => (decode_of_mnemonicOf (m := .enter) rfl stkc rest).trans (decodeB1_toNat stkc _),
    fun s stkc w => ⟨fun hfit => ?frame, fun hpast => complete_of_error (State.enterFrame_eq_error.2 ⟨hpast, rfl⟩),
      fun s1 s2 s3 hpush hs1 hmovl hsubl => ?three⟩⟩
  case frame =>
    exact ⟨_, complete_of_ok (State.enterFrame_eq_ok.2 ⟨hfit, rfl⟩), State.storedAt_setMem_writeLE w _ _ _, rfl⟩
  case three =>
    obtain ⟨u, hu, hs1eq⟩ := ok_of_complete ((exec_pushInstr ⟨.l, fpReg⟩ s).symm.trans hpush) hs1
    obtain ⟨hfit, rfl⟩ := State.push_eq_ok.1 hu
    obtain rfl : (s1.setFp s1.sp).setPc (s1.npc 2) = s2 := Host.Outcome.next.inj hmovl
    have hs3 : (State.setSp _ (State.sp _ - stackBytes stkc)).setPc _ = s3 := Host.Outcome.next.inj hsubl
    refine (complete_of_ok (State.enterFrame_eq_ok.2 ⟨hfit, rfl⟩)).trans (congrArg _ ?_)
    refine State.eq_of_longs (s := s3.setPc (s.npc 2)) (by subst hs1eq hs3; rfl) fun k => ?_
    subst hs1eq hs3
    simp only [State.setL_L, State.setPc_L, State.setMem_L, fpReg_ne_spReg, if_true, if_false]
    split_ifs <;> rfl

/-- Settles O51. The three instructions move sp to fp and above what they pop, where leave sets it once. -/
theorem leaveResult : Obligations.LeaveResult := by
  refine ⟨fun stkc rest => (decode_of_mnemonicOf (m := .leave) rfl stkc rest).trans (decodeB1_toNat stkc _),
    fun s stkc => ⟨fun hfp hpc => finish_of_ok (State.leaveFrame_eq_ok.2 ⟨hfp, hpc, rfl⟩),
      fun hpast => finish_of_error (State.leaveFrame_eq_error.2 (.inl ⟨hpast, rfl⟩)),
      fun hfp hpast => finish_of_error (State.leaveFrame_eq_error.2 (.inr ⟨hfp, hpast, rfl⟩)),
      fun s1 s2 s3 hmovl hpopl hs2 hret hs3 => ?_⟩⟩
  obtain rfl : (s.setSp s.fp).setPc (s.npc 2) = s1 := Host.Outcome.next.inj hmovl
  obtain ⟨u, hu, hs2eq⟩ := ok_of_complete ((exec_popInstr ⟨.l, fpReg⟩ _).symm.trans hpopl) hs2
  obtain ⟨hfp, rfl⟩ := State.popReg_eq_ok.1 hu
  obtain ⟨hpc, hs3eq⟩ := State.returnFrame_eq_ok.1 (ok_of_finish hret hs3)
  have hsp1 : ((s.setSp s.fp).setPc (s.npc 2)).sp = s.fp := by simp
  have hsp2 : s2.sp = s.fp + 4 := by
    rw [hs2eq]
    simp [State.setG, State.drop, RegFile.size]
  have habove : s.fp + 4 + 4 = s.fp + 8 := BitVec.add_assoc _ _ _
  rw [hsp2] at hpc hs3eq
  rw [hsp1] at hfp hs2eq
  rw [habove] at hs3eq
  subst hs2eq hs3eq
  refine (finish_of_ok (State.leaveFrame_eq_ok.2 ⟨hfp, hpc, rfl⟩)).trans (congrArg _ ?_)
  refine State.eq_of_longs rfl fun k => ?_
  simp only [State.setG, State.drop, State.setL_L, State.setPc_L]
  split_ifs <;> rfl

/-- Legal parameters have no memory beyond 2^32 bytes (00_scope.md R6). -/
theorem memSize_le_of_wf {p : Params} (hp : p.wf = true) : p.memSize ≤ 2 ^ 32 := by
  simp only [Params.wf, Bool.and_eq_true, decide_eq_true_eq] at hp
  obtain ⟨⟨⟨⟨-, hsize⟩, -⟩, -⟩, -⟩ := hp
  exact hsize

/-- A long restored to the value it had when it was stored. -/
theorem ofNat_readLE_writeLE_toNat {m : Memory} (w : m.wf) (a : Nat) (v : Long) :
    BitVec.ofNat 32 ((m.writeLE a 4 v.toNat).readLE a 4) = v := by
  rw [Memory.readLE_writeLE_self _ _ _ _ w, show 256 ^ 4 = 2 ^ 32 from rfl, Nat.mod_eq_of_lt v.isLt]
  exact (eq_ofNat_toNat v).symm

/-- Settles O60: what was stored below sp is read back, and above it nothing changed. -/
theorem returnsUndoTheirEntries : Obligations.ReturnsUndoTheirEntries := by
  intro s t w hp ht
  refine ⟨fun off hcall => ?call, fun j k hsp henter => ?enter⟩
  case call =>
    obtain ⟨u, hu, rfl⟩ := State.callTo_eq_ok.1 (ok_of_finish hcall ht)
    obtain ⟨hfit, rfl⟩ := State.push_eq_ok.1 hu
    have hback := ofNat_readLE_writeLE_toNat w (s.sp - BitVec.ofNat 32 4).toNat (s.npc 4)
    have hsp : s.sp - BitVec.ofNat 32 4 + 4 + stackBytes 0 = s.sp :=
      (BitVec.add_zero _).trans (BitVec.sub_add_cancel _ _)
    refine finish_of_ok (State.returnFrame_eq_ok.2 ?_)
    simp only [State.setPc_L, State.setPc_mem, State.setPc_params, State.setL_L_self, State.setL_mem, State.setL_params,
      State.setMem_params, State.setMem_mem, hback, hsp]
    refine ⟨hfit, State.eq_of_longs rfl fun k => ?_⟩
    change s.L k = _
    simp only [State.setL_L, State.setPc_L, State.setMem_L]
    split_ifs with h
    · rw [← h]
    · rfl
  case enter =>
    obtain ⟨u, hu, rfl⟩ := ok_of_complete henter ht
    obtain ⟨hfit, rfl⟩ := State.enterFrame_eq_ok.1 hu
    have hback := ofNat_readLE_writeLE_toNat w (s.sp - 4).toNat s.fp
    have hslot : s.sp - 4 + 4 = s.sp := BitVec.sub_add_cancel _ _
    have habove : s.sp - 4 + 8 = s.sp + 4 := by bv_omega
    have hapart : s.sp.toNat + 4 ≤ (s.sp - 4).toNat ∨ (s.sp - 4).toNat + 4 ≤ s.sp.toNat := by
      have hsize := memSize_le_of_wf hp
      bv_omega
    have hkept := Memory.readLE_writeLE_other s.mem (s.sp - 4).toNat 4 s.fp.toNat s.sp.toNat 4 hapart
    refine finish_of_ok (State.leaveFrame_eq_ok.2 ?_)
    simp only [State.setPc_L, State.setPc_mem, State.setPc_params, State.setL_L_self, State.setL_L_other, State.setL_mem,
      State.setL_params, State.setMem_params, State.setMem_mem, ne_eq, spReg_ne_fpReg, not_false_eq_true, hback, hslot,
      habove, hkept]
    refine ⟨hfit, hsp, State.eq_of_longs rfl fun i => ?_⟩
    change (s.setSp (s.sp + 4 + stackBytes k)).L i = _
    simp only [State.setL_L, State.setPc_L, State.setMem_L]
    split_ifs with h7 h6
    · rfl
    · rw [← h6]
    · rfl

/-! ## Pushes and pops -/

/-- Settles O53: each operand type pushes its own number of bytes. -/
theorem pushResults : Obligations.PushResults := by
  intro s w pushes
  have result {n b : Nat} {x : Except Fault (BitVec n)} {v : BitVec n} (hx : x = .ok v) (len : Nat) :
      pushes b v.toNat len (complete s len (do let a ← x; s.push b a.toNat)) := by
    subst hx
    exact ⟨fun hfit => pushResult_push w hfit _, fun hpast => trap_push hpast _⟩
  exact ⟨fun q v hq => result hq _, fun q v hq => result hq _, fun q v hq => result hq _, fun q v hq => result hq _⟩

/-- A long register other than sp can be written after sp has moved as well as before. -/
theorem State.setL_drop_of_ne {s : State} {k : Reg} (hk : k ≠ spReg) {n : Nat} {x : Long} :
    (s.setL k x).drop n = (s.drop n).setL k x := by
  simp [State.drop, hk, State.setL_comm _ hk]

/-- sp moves up from what was written to it last. -/
theorem State.setSp_drop {s : State} {n : Nat} {x : Long} : (s.setSp x).drop n = s.setSp (x + BitVec.ofNat 32 n) := by
  simp [State.drop, State.setL_setL_self]

section
variable {s : State} {n b : Nat} {setReg : Reg → BitVec n → State} {kind : QKind n}

/-- What the four pops of an operand share: the top is read, the destination written, then sp moved
(45_control_stack_misc.md R356 to R359). -/
def State.popTo (s : State) (b : Nat) (setReg : Reg → BitVec n → State) (kind : QKind n) : Result := do
  let v ← s.top b
  let t ← kind.store setReg (BitVec.ofNat n v) s
  return t.drop b

theorem exec_popw (q : QOp 16) (s : State) :
    exec (.popw q) s = complete s (2 + q.extraBytes) (s.popTo 2 s.setW (q.kind wordImms s)) := rfl

theorem exec_popl (q : QOp 32) (s : State) :
    exec (.popl q) s = complete s (2 + q.extraBytes) (s.popTo 4 s.setL (q.kind longImms s)) := rfl

theorem exec_popf (q : QOp 32) (s : State) :
    exec (.popf q) s = complete s (2 + q.extraBytes) (s.popTo 4 s.setF (q.kind floatImms s)) := rfl

theorem exec_popd (q : QOp 64) (s : State) :
    exec (.popd q) s = complete s (2 + q.extraBytes) (s.popTo 8 s.setD (q.kind doubleImms s)) := rfl

/-- Where the top of the stack is not in memory, no destination is looked at. -/
theorem State.popTo_of_empty (hpast : s.params.memSize < s.sp.toNat + b) :
    s.popTo b setReg kind = .error (.memoryBounds s.sp.toNat) := by
  rw [State.popTo, State.top, State.memRead_eq_error.2 ⟨hpast, rfl⟩]
  rfl

/-- Where it is, a register receives it. -/
theorem State.popTo_reg (hfit : s.sp.toNat + b ≤ s.params.memSize) (k : Reg) :
    s.popTo b setReg (.reg k) = .ok ((setReg k (BitVec.ofNat n (s.mem.readLE s.sp.toNat b))).drop b) := by
  rw [State.popTo, State.top_eq_ok.2 ⟨hfit, rfl⟩]
  rfl

/-- Where it is, its bytes are written to a destination in memory. -/
theorem State.popTo_mem (hn : n = 8 * b) (hfit : s.sp.toNat + b ≤ s.params.memSize) (a : Long) :
    s.popTo b setReg (.mem a) = (s.memWrite a b (s.mem.readLE s.sp.toNat b)).map fun t => t.drop b := by
  have hbytes : n / 8 = b := by omega
  have htop : (BitVec.ofNat n (s.mem.readLE s.sp.toNat b)).toNat = s.mem.readLE s.sp.toNat b := by
    rw [BitVec.toNat_ofNat, hn, two_pow_eight_mul, Nat.mod_eq_of_lt (s.mem.readLE_lt _ _)]
  rw [State.popTo, State.top_eq_ok.2 ⟨hfit, rfl⟩, ok_bind_fault, QKind.store_mem, hbytes, htop]
  cases s.memWrite a b (s.mem.readLE s.sp.toNat b) <;> rfl

end

/-- Settles O54, by where the top goes. -/
theorem popResults : Obligations.PopResults := by
  intro s k v up stores empty
  simp only [exec_popw, exec_popl, exec_popf, exec_popd]
  have past {n b len : Nat} {setReg : Reg → BitVec n → State} {kind : QKind n} :
      empty b (complete s len (s.popTo b setReg kind)) := fun hpast => complete_of_error (State.popTo_of_empty hpast)
  have memory {n b len : Nat} (hn : n = 8 * b) (hfit : s.sp.toNat + b ≤ s.params.memSize) {kind : QKind n} {a : Long}
      (hkind : kind = .mem a) {setReg : Reg → BitVec n → State} :
      stores b len a (complete s len (s.popTo b setReg kind)) := by
    rw [hkind, State.popTo_mem hn hfit]
    refine ⟨fun w ha => ?_, fun hpast => ?_⟩
    · rw [State.memWrite_eq_ok.2 ⟨ha, rfl⟩]
      exact ⟨_, rfl, State.storedAt_setMem_writeLE w a b _, rfl⟩
    · rw [State.memWrite_eq_error.2 ⟨hpast, rfl⟩]
      rfl
  refine ⟨fun q => past, fun q => ⟨past, past⟩, fun q => past,
    fun hfit => ⟨complete_of_ok (State.popTo_reg hfit k), fun q a hq => memory rfl hfit hq⟩,
    fun hfit => ⟨fun hk => ?other, ?sp, complete_of_ok (State.popTo_reg hfit k),
      fun q a => ⟨fun hq => memory rfl hfit hq, fun hq => memory rfl hfit hq⟩⟩,
    fun hfit => ⟨complete_of_ok (State.popTo_reg hfit k), fun q a hq => memory rfl hfit hq⟩⟩
  case other => exact complete_of_ok ((State.popTo_reg hfit k).trans (congrArg _ (State.setL_drop_of_ne hk)))
  case sp => exact complete_of_ok ((State.popTo_reg hfit 7).trans (congrArg _ State.setSp_drop))

end Sys2Proof.Machine
end

section
/-! PROOFS. Sets of registers pushed and popped (45_control_stack_misc.md R350, R360, R361, R363). A register of a
mask lies below those of the lower bits, so pushes are followed from bit 0 up and pops from bit 31 down. After each
register the state is known in full: sp is where the bytes counted so far put it, or where a popped sp did. -/

namespace Sys2Proof.Machine

/-! ## One register after another -/

/-- An operation for each register number of a list whose bit of the mask is on. -/
def eachOfMask (m : Long) (op : Nat → State → Result) : List Nat → State → Result
  | [], s => .ok s
  | n :: ns, s => if m.getLsbD n then op n s >>= eachOfMask m op ns else eachOfMask m op ns s

/-- A push of the register with a number. -/
def State.pushNumber (n : Nat) (s : State) : Result := s.push (GReg.ofNumber n).file.size (s.G (GReg.ofNumber n))

/-- A pop of the register with a number. -/
def State.popNumber (n : Nat) (s : State) : Result := s.popReg (GReg.ofNumber n)

theorem pushEach_eq (m : Long) (ns : List Nat) (s : State) : pushEach m ns s = eachOfMask m State.pushNumber ns s := by
  induction ns generalizing s with
  | nil => rfl
  | cons n ns ih => simp only [pushEach, eachOfMask, ih, State.pushNumber]

theorem popEach_eq (m : Long) (ns : List Nat) (s : State) : popEach m ns s = eachOfMask m State.popNumber ns s := by
  induction ns generalizing s with
  | nil => rfl
  | cons n ns ih => simp only [popEach, eachOfMask, ih, State.popNumber]

section
variable {m : Long} {op : Nat → State → Result}

theorem eachOfMask_append (ns ks : List Nat) (s : State) :
    eachOfMask m op (ns ++ ks) s = eachOfMask m op ns s >>= eachOfMask m op ks := by
  induction ns generalizing s with
  | nil => rfl
  | cons n ns ih =>
    simp only [List.cons_append, eachOfMask, ih]
    split
    · rw [bind_assoc]
      exact congrArg (op n s >>= ·) (funext ih)
    · rfl

theorem eachOfMask_singleton (n : Nat) (s : State) :
    eachOfMask m op [n] s = if m.getLsbD n then op n s else .ok s := by
  rw [eachOfMask]
  split
  · exact bind_pure (op n s)
  · rfl

/-- Where no bit of the list is on, nothing happens. -/
theorem eachOfMask_of_off {ns : List Nat} (h : ∀ n ∈ ns, m.getLsbD n = false) (s : State) :
    eachOfMask m op ns s = .ok s := by
  induction ns generalizing s with
  | nil => rfl
  | cons n ns ih =>
    rw [List.forall_mem_cons] at h
    obtain ⟨hn, hns⟩ := h
    simp only [eachOfMask, hn, Bool.false_eq_true, if_false, ih hns]

/-- Only the bits of the list matter. -/
theorem eachOfMask_congr {m' : Long} {ns : List Nat} (h : ∀ n ∈ ns, m.getLsbD n = m'.getLsbD n) (s : State) :
    eachOfMask m op ns s = eachOfMask m' op ns s := by
  induction ns generalizing s with
  | nil => rfl
  | cons n ns ih =>
    rw [List.forall_mem_cons] at h
    obtain ⟨hn, hns⟩ := h
    simp only [eachOfMask, hn, funext (ih hns)]

/-- The first register of the list whose bit is on comes first; the others follow under the mask without it. -/
theorem eachOfMask_first {ns ks : List Nat} {n : Nat} {rest : Long} (hon : m.getLsbD n = true)
    (hoff : ∀ j ∈ ns, m.getLsbD j = false) (hne : ∀ j ∈ ks, j ≠ n)
    (hrest : ∀ j, rest.getLsbD j = (m.getLsbD j && decide (j ≠ n))) (s : State) :
    eachOfMask m op (ns ++ n :: ks) s = op n s >>= eachOfMask rest op (ns ++ n :: ks) := by
  have hskip (t : State) : eachOfMask rest op (ns ++ n :: ks) t = eachOfMask m op ks t := by
    have hbefore : ∀ j ∈ ns, rest.getLsbD j = false := fun j hj => by rw [hrest, hoff j hj, Bool.false_and]
    have hafter : ∀ j ∈ ks, rest.getLsbD j = m.getLsbD j := fun j hj => by simp [hrest, hne j hj]
    have hself : rest.getLsbD n = false := by simp [hrest]
    rw [eachOfMask_append, eachOfMask_of_off hbefore, ok_bind_fault, eachOfMask, hself, ← eachOfMask_congr hafter]
    rfl
  rw [eachOfMask_append, eachOfMask_of_off hoff, ok_bind_fault, eachOfMask, if_pos hon, funext hskip]

end

/-- The register numbers from 0 up, cut at one of them. -/
theorem range_eq_append {n : Nat} (hn : n < 32) :
    List.range 32 = List.range n ++ n :: List.range' (n + 1) (32 - (n + 1)) := by
  revert n
  decide

/-! ## How many bytes -/

/-- The bytes of register `n` on the stack, none where its bit is off. -/
def maskSize (m : Long) (n : Nat) : Nat := if m.getLsbD n then (GReg.ofNumber n).file.size else 0

/-- The bytes of the registers of a mask from `lo` up to but not including `hi`. -/
def bytesBetween (m : Long) (lo hi : Nat) : Nat := ∑ n ∈ Finset.Ico lo hi, maskSize m n

section
variable {m : Long} {n lo mid hi : Nat}

theorem maskSize_of_on (h : m.getLsbD n = true) : maskSize m n = (GReg.ofNumber n).file.size := if_pos h

theorem maskSize_of_off (h : m.getLsbD n = false) : maskSize m n = 0 := by simp [maskSize, h]

@[simp] theorem bytesBetween_self (m : Long) (k : Nat) : bytesBetween m k k = 0 := by simp [bytesBetween]

theorem bytesBetween_add (h : lo ≤ mid) (h' : mid ≤ hi) :
    bytesBetween m lo mid + bytesBetween m mid hi = bytesBetween m lo hi :=
  Finset.sum_Ico_consecutive _ h h'

theorem bytesBetween_succ (h : lo ≤ n) : bytesBetween m lo (n + 1) = bytesBetween m lo n + maskSize m n :=
  Finset.sum_Ico_succ_top h _

theorem bytesBetween_eq_add (h : n < hi) : bytesBetween m n hi = maskSize m n + bytesBetween m (n + 1) hi :=
  Finset.sum_eq_sum_Ico_succ_bot h _

/-- The bytes of a mask are those of any mask that agrees with it on the registers it has. -/
theorem maskBytes_eq_bytesBetween {m' : Long} (hhi : hi ≤ 32)
    (h : ∀ n < 32, m'.getLsbD n = (m.getLsbD n && decide (lo ≤ n ∧ n < hi))) :
    maskBytes m' = bytesBetween m lo hi := by
  have hsum : maskBytes m' = ∑ n ∈ Finset.range 32, maskSize m' n := rfl
  rw [hsum, bytesBetween]
  symm
  refine Finset.sum_subset_zero_on_sdiff (fun n hn => ?_) (fun n hn => ?_) fun n hn => ?_
  · rw [Finset.mem_Ico] at hn
    rw [Finset.mem_range]
    omega
  · rw [Finset.mem_sdiff, Finset.mem_range, Finset.mem_Ico] at hn
    obtain ⟨hlt, hout⟩ := hn
    refine maskSize_of_off ?_
    rw [h n hlt, decide_eq_false hout, Bool.and_false]
  · rw [Finset.mem_Ico] at hn
    rw [maskSize, maskSize, h n (by omega), decide_eq_true hn, Bool.and_true]

theorem maskBytes_eq (m : Long) : maskBytes m = bytesBetween m 0 32 :=
  maskBytes_eq_bytesBetween le_rfl fun n hn => by simp [hn]

/-- All registers together take 144 bytes. -/
theorem maskBytes_le (m : Long) : maskBytes m ≤ 144 := by
  have hsize (n : Nat) : maskSize m n ≤ (GReg.ofNumber n).file.size := by
    rw [maskSize]
    split <;> omega
  calc maskBytes m = ∑ n ∈ Finset.range 32, maskSize m n := rfl
    _ ≤ ∑ n ∈ Finset.range 32, (GReg.ofNumber n).file.size := Finset.sum_le_sum fun n _ => hsize n
    _ = 144 := by decide

end

/-! ## Register numbers -/

theorem ofNumber_inj {n j : Nat} (hn : n < 32) (hj : j < 32) (h : GReg.ofNumber n = GReg.ofNumber j) : n = j := by
  rw [← GReg.number_ofNumber hn, h, GReg.number_ofNumber hj]

/-- sp is the register with the general number 15 (10_state.md R22, R25). -/
theorem ofNumber_ne_sp {n : Nat} (hn : n < 32) (h : n ≠ 15) : GReg.ofNumber n ≠ ⟨.l, spReg⟩ :=
  fun heq => h (ofNumber_inj hn (by decide) heq)

/-- A write to sp leaves the other registers as they were. -/
theorem State.setSp_G {g : GReg} (hg : g ≠ ⟨.l, spReg⟩) (s : State) (v : Long) : (s.setSp v).G g = s.G g := by
  have h := s.setG_G_other _ g v.toNat hg.symm
  rwa [State.setG, ← eq_ofNat_toNat] at h

@[simp] theorem State.setMem_G (s : State) (m : Memory) (g : GReg) : (s.setMem m).G g = s.G g := rfl

@[simp] theorem State.setPc_G (s : State) (v : Long) (g : GReg) : (s.setPc v).G g = s.G g := rfl

/-- The bytes of register `n` are in memory from an address on (20_memory.md R52). -/
abbrev State.fitsAt (s : State) (n : Nat) (a : Long) : Prop := a.toNat + (GReg.ofNumber n).file.size ≤ s.params.memSize

/-- States that agree outside the registers, and on each of these, are equal. -/
theorem State.eq_of_registers {s t : State} (hrest : t = { s with w := t.w, l := t.l, f := t.f, d := t.d })
    (hG : ∀ n < 32, t.G (GReg.ofNumber n) = s.G (GReg.ofNumber n)) : t = s := by
  have h (g : GReg) : t.G g = s.G g := by
    rw [← GReg.ofNumber_number g]
    exact hG _ g.number_lt
  have hw : t.w = s.w := Vector.ext fun i hi => BitVec.eq_of_toNat_eq (h ⟨.w, ⟨i, hi⟩⟩)
  have hl : t.l = s.l := Vector.ext fun i hi => BitVec.eq_of_toNat_eq (h ⟨.l, ⟨i, hi⟩⟩)
  have hf : t.f = s.f := Vector.ext fun i hi => BitVec.eq_of_toNat_eq (h ⟨.f, ⟨i, hi⟩⟩)
  have hd : t.d = s.d := Vector.ext fun i hi => BitVec.eq_of_toNat_eq (h ⟨.d, ⟨i, hi⟩⟩)
  rw [hrest, hw, hl, hf, hd]

/-! ## Pushes -/

/-- sp after the pushes of the registers of a mask below `k`; register `n` then lies at `spPushed m (n + 1)`. -/
def State.spPushed (s : State) (m : Long) (k : Nat) : Long := s.sp - BitVec.ofNat 32 (bytesBetween m 0 k)

/-- What is pushed for register `n`: what it holds, sp itself as it stands at its turn. -/
def State.pushedValue (s : State) (m : Long) (n : Nat) : Nat :=
  if n = 15 then (s.spPushed m n).toNat else s.G (GReg.ofNumber n)

/-- Memory after the pushes of the registers of a mask below a number. -/
def State.memPushed (s : State) (m : Long) : Nat → Memory
  | 0 => s.mem
  | n + 1 =>
    if m.getLsbD n then
      (s.memPushed m n).writeLE (s.spPushed m (n + 1)).toNat (GReg.ofNumber n).file.size (s.pushedValue m n)
    else s.memPushed m n

/-- The state after the pushes of the registers of a mask below `k`. -/
def State.pushed (s : State) (m : Long) (k : Nat) : State := (s.setMem (s.memPushed m k)).setSp (s.spPushed m k)

section
variable {s : State} {m : Long} {n k : Nat}

theorem State.spPushed_zero : s.spPushed m 0 = s.sp := by
  simp [State.spPushed]

theorem State.spPushed_of_on (h : m.getLsbD n = true) :
    s.spPushed m (n + 1) = s.spPushed m n - BitVec.ofNat 32 (GReg.ofNumber n).file.size := by
  rw [State.spPushed, State.spPushed, bytesBetween_succ (Nat.zero_le n), maskSize_of_on h, BitVec.ofNat_add,
    BitVec.sub_sub]

theorem State.spPushed_of_off (h : m.getLsbD n = false) : s.spPushed m (n + 1) = s.spPushed m n := by
  rw [State.spPushed, State.spPushed, bytesBetween_succ (Nat.zero_le n), maskSize_of_off h, Nat.add_zero]

theorem State.pushed_zero : s.pushed m 0 = s := by
  rw [State.pushed, State.spPushed_zero]
  exact State.setL_L_eq_self s spReg

theorem State.pushed_of_off (h : m.getLsbD n = false) : s.pushed m (n + 1) = s.pushed m n := by
  simp [State.pushed, State.spPushed_of_off h, State.memPushed, h]

theorem State.pushed_sp : (s.pushed m k).sp = s.spPushed m k := State.setL_L_self _ _ _

theorem State.pushed_G_other (hn : n < 32) (hne : n ≠ 15) :
    (s.pushed m k).G (GReg.ofNumber n) = s.G (GReg.ofNumber n) :=
  State.setSp_G (ofNumber_ne_sp hn hne) _ _

/-- At its turn a register still holds what is to be pushed for it. -/
theorem State.pushed_G (hn : n < 32) : (s.pushed m n).G (GReg.ofNumber n) = s.pushedValue m n := by
  rw [State.pushedValue]
  split
  · next h =>
    subst h
    exact congrArg BitVec.toNat (State.setL_L_self _ _ _)
  · next h => exact State.pushed_G_other hn h

/-- The push of the next register of the mask. -/
theorem State.pushNumber_pushed (hn : n < 32) (hon : m.getLsbD n = true)
    (hfit : s.fitsAt n (s.spPushed m (n + 1))) :
    (s.pushed m n).pushNumber n = .ok (s.pushed m (n + 1)) := by
  rw [State.pushNumber, State.push_eq_ok, State.pushed_sp, ← State.spPushed_of_on hon, State.pushed_G hn]
  refine ⟨hfit, ?_⟩
  rw [State.pushed, State.pushed, State.memPushed, if_pos hon]
  exact (State.setL_setL_self _ _ _ _).symm

/-- Where the registers below `k` all fit, they are pushed. -/
theorem State.push_below (hk : k ≤ 32) (hfit : ∀ n < k, m.getLsbD n = true → s.fitsAt n (s.spPushed m (n + 1))) :
    eachOfMask m State.pushNumber (List.range k) s = .ok (s.pushed m k) := by
  induction k with
  | zero => rw [State.pushed_zero, List.range_zero, eachOfMask]
  | succ k ih =>
    have hbelow := ih (by omega) fun n hn => hfit n (by omega)
    rw [List.range_succ, eachOfMask_append, hbelow, ok_bind_fault, eachOfMask_singleton]
    split
    · next hon => exact State.pushNumber_pushed (by omega) hon (hfit k (by omega) hon)
    · next hoff => rw [State.pushed_of_off (Bool.eq_false_iff.2 hoff)]

theorem State.pushMask_eq_ok (hfit : ∀ n < 32, m.getLsbD n = true → s.fitsAt n (s.spPushed m (n + 1))) :
    s.pushMask m = .ok (s.pushed m 32) :=
  (pushEach_eq _ _ _).trans (State.push_below le_rfl hfit)

/-- Where the registers below `n` fit and `n` does not, its push is the one that faults. -/
theorem State.pushMask_eq_error (hn : n < 32) (hon : m.getLsbD n = true)
    (hfit : ∀ j < n, m.getLsbD j = true → s.fitsAt j (s.spPushed m (j + 1)))
    (hpast : s.params.memSize < (s.spPushed m (n + 1)).toNat + (GReg.ofNumber n).file.size) :
    s.pushMask m = .error (.memoryBounds (s.spPushed m (n + 1)).toNat) := by
  have hpush : (s.pushed m n).pushNumber n = .error (.memoryBounds (s.spPushed m (n + 1)).toNat) := by
    rw [State.pushNumber, State.push_eq_error, State.pushed_sp, ← State.spPushed_of_on hon]
    exact ⟨hpast, rfl⟩
  rw [State.pushMask, pushEach_eq, range_eq_append hn, eachOfMask_append, State.push_below hn.le hfit, ok_bind_fault,
    eachOfMask, if_pos hon, hpush]
  rfl

/-! ## What the pushes leave in memory -/

theorem State.wf_memPushed (w : s.mem.wf) (m : Long) (k : Nat) : (s.memPushed m k).wf := by
  induction k with
  | zero => exact w
  | succ k ih =>
    rw [State.memPushed]
    split
    · exact Memory.wf_writeLE _ _ _ _ ih
    · exact ih

/-- Outside the slots of the registers pushed, memory is as it was. -/
theorem State.read_memPushed_other {b : Nat} (hout : ∀ n < k, m.getLsbD n = true →
    b < (s.spPushed m (n + 1)).toNat ∨ (s.spPushed m (n + 1)).toNat + (GReg.ofNumber n).file.size ≤ b) :
    (s.memPushed m k).read b = s.mem.read b := by
  induction k with
  | zero => rfl
  | succ k ih =>
    have hbelow := ih fun n hn => hout n (by omega)
    rw [State.memPushed]
    split
    · next hon => rw [Memory.read_writeLE_other _ _ _ _ _ (hout k (by omega) hon), hbelow]
    · exact hbelow

/-- The value pushed for a register fits it. -/
theorem State.pushedValue_lt (s : State) (m : Long) (n : Nat) :
    s.pushedValue m n < 256 ^ (GReg.ofNumber n).file.size := by
  rw [State.pushedValue]
  split
  · next h =>
    subst h
    exact (s.spPushed m 15).isLt
  · rw [← two_pow_eight_mul]
    exact s.G_lt _

/-- Two slots inside the address space do not overlap, also where sp wraps around between them. -/
theorem State.slots_apart {j : Nat} (hnj : n < j) (hj : j < 32) (hn : m.getLsbD n = true) (hjon : m.getLsbD j = true) :
    (s.spPushed m (n + 1)).toNat + (GReg.ofNumber n).file.size ≤ 2 ^ 32 →
    (s.spPushed m (j + 1)).toNat + (GReg.ofNumber j).file.size ≤ 2 ^ 32 →
    (s.spPushed m (n + 1)).toNat + (GReg.ofNumber n).file.size ≤ (s.spPushed m (j + 1)).toNat ∨
      (s.spPushed m (j + 1)).toNat + (GReg.ofNumber j).file.size ≤ (s.spPushed m (n + 1)).toNat := by
  intro hnfit hjfit
  have htotal : bytesBetween m 0 (j + 1) ≤ 144 := by
    have hle := maskBytes_le m
    rw [maskBytes_eq, ← bytesBetween_add (Nat.zero_le (j + 1)) hj] at hle
    omega
  have hnsplit := bytesBetween_succ (m := m) (Nat.zero_le n)
  have hjsplit := bytesBetween_succ (m := m) (Nat.zero_le j)
  have hmid := bytesBetween_add (m := m) (Nat.zero_le (n + 1)) hnj
  rw [maskSize_of_on hn] at hnsplit
  rw [maskSize_of_on hjon] at hjsplit
  simp only [State.spPushed, BitVec.toNat_sub, BitVec.toNat_ofNat] at hnfit hjfit ⊢
  omega

/-- Each register pushed is stored in its slot. -/
theorem State.readLE_memPushed (w : s.mem.wf) (hsize : s.params.memSize ≤ 2 ^ 32) (hk : k ≤ 32)
    (hfit : ∀ j < k, m.getLsbD j = true → s.fitsAt j (s.spPushed m (j + 1)))
    (hn : n < k) (hon : m.getLsbD n = true) :
    (s.memPushed m k).readLE (s.spPushed m (n + 1)).toNat (GReg.ofNumber n).file.size = s.pushedValue m n := by
  induction k with
  | zero => omega
  | succ k ih =>
    have hbelow := ih (by omega) fun j hj => hfit j (by omega)
    rw [State.memPushed]
    split
    · next hkon =>
      rcases Nat.lt_succ_iff_lt_or_eq.1 hn with hlt | rfl
      · have hapart := State.slots_apart hlt (by omega) hon hkon ((hfit n hn hon).trans hsize)
          ((hfit k (by omega) hkon).trans hsize)
        rw [Memory.readLE_writeLE_other _ _ _ _ _ _ hapart, hbelow hlt]
      · rw [Memory.readLE_writeLE_self _ _ _ _ (State.wf_memPushed w m n), Nat.mod_eq_of_lt (s.pushedValue_lt m n)]
    · next hoff => exact hbelow (lt_of_le_of_ne (Nat.lt_succ_iff.1 hn) fun h => hoff (h ▸ hon))

end

/-- The bits of a mask up to one of them. -/
theorem maskBytes_upTo (m : Long) {n : Nat} (hn : n < 32) :
    maskBytes (m <<< (31 - n) >>> (31 - n)) = bytesBetween m 0 (n + 1) := by
  refine maskBytes_eq_bytesBetween (by omega) fun j hj => ?_
  have hshift : 31 - n + j < 32 ↔ j < n + 1 := by omega
  simp [hshift, Bool.and_comm]

/-- Settles O55. -/
theorem pushregsResult : Obligations.PushregsResult := by
  intro s m upTo size slot
  have hslot {n : Nat} (hn : n < 32) : slot n = s.spPushed m (n + 1) := by
    rw [State.spPushed, ← maskBytes_upTo m hn]
  refine ⟨fun w hp hfit => ?ok, fun n hn hon hfit hpast => ?fault⟩
  case ok =>
    have hfits : ∀ n < 32, m.getLsbD n = true → s.fitsAt n (s.spPushed m (n + 1)) :=
      fun n hn hon => hslot hn ▸ hfit n hn hon
    refine ⟨_, complete_of_ok (State.pushMask_eq_ok hfits), ?_, fun b hb => ?_, fun n hn hon => ?_⟩
    · rw [maskBytes_eq]
      rfl
    · exact State.read_memPushed_other fun n hn hon => hslot hn ▸ hb n hn hon
    · rw [hslot hn]
      have hvalue := State.readLE_memPushed w (memSize_le_of_wf hp) le_rfl hfits hn hon
      rw [State.pushedValue] at hvalue
      refine hvalue.trans ?_
      split
      · next h =>
        subst h
        rw [maskBytes_upTo m (by decide)]
        rfl
      · rfl
  case fault =>
    rw [hslot hn] at hpast ⊢
    exact complete_of_error
      (State.pushMask_eq_error hn hon (fun j hj hjon => hslot (hj.trans hn) ▸ hfit j hj hjon) hpast)

/-! ## Pops -/

/-- What sp becomes where the mask has sp: the long that lies above the registers of the higher bits. -/
def State.spLoaded (s : State) (m : Long) : Long :=
  BitVec.ofNat 32 (s.mem.readLE (s.sp + BitVec.ofNat 32 (bytesBetween m 16 32)).toNat 4)

/-- sp after the pops of the registers of a mask from `k` up; register `n` then lies at `spPopped m (n + 1)`. -/
def State.spPopped (s : State) (m : Long) (k : Nat) : Long :=
  if k ≤ 15 ∧ m.getLsbD 15 = true then s.spLoaded m + 4 + BitVec.ofNat 32 (bytesBetween m k 15)
  else s.sp + BitVec.ofNat 32 (bytesBetween m k 32)

/-- `t` is the state after the pops of the registers of a mask from `k` up. -/
structure PoppedFrom (s : State) (m : Long) (k : Nat) (t : State) : Prop where
  frame : ∃ w l f d, t = { s with w := w, l := l, f := f, d := d }
  sp : t.sp = s.spPopped m k
  registers : ∀ n < 32, n ≠ 15 → t.G (GReg.ofNumber n) =
    if k ≤ n ∧ m.getLsbD n = true then s.mem.readLE (s.spPopped m (n + 1)).toNat (GReg.ofNumber n).file.size
    else s.G (GReg.ofNumber n)

section
variable {s t : State} {m : Long} {n k : Nat}

theorem State.spPopped_of_off (hk : k < 32) (hoff : m.getLsbD k = false) : s.spPopped m k = s.spPopped m (k + 1) := by
  have hsame {hi : Nat} (h : k < hi) : bytesBetween m k hi = bytesBetween m (k + 1) hi := by
    rw [bytesBetween_eq_add h, maskSize_of_off hoff, Nat.zero_add]
  have hne : m.getLsbD 15 = true → k ≠ 15 := by
    rintro h rfl
    exact absurd h (Bool.eq_false_iff.1 hoff)
  rw [State.spPopped, State.spPopped]
  by_cases h : k ≤ 15 ∧ m.getLsbD 15 = true
  · obtain ⟨hle, hsp⟩ := h
    have := hne hsp
    rw [if_pos ⟨hle, hsp⟩, if_pos ⟨by omega, hsp⟩, hsame (by omega)]
  · rw [if_neg h, if_neg fun h' => h ⟨by omega, h'.2⟩, hsame hk]

theorem State.spPopped_of_on (hk : k < 32) (hon : m.getLsbD k = true) (hne : k ≠ 15) :
    s.spPopped m k = s.spPopped m (k + 1) + BitVec.ofNat 32 (GReg.ofNumber k).file.size := by
  have hmore {hi : Nat} (h : k < hi) : BitVec.ofNat 32 (bytesBetween m k hi) =
      BitVec.ofNat 32 (bytesBetween m (k + 1) hi) + BitVec.ofNat 32 (GReg.ofNumber k).file.size := by
    rw [bytesBetween_eq_add h, maskSize_of_on hon, Nat.add_comm, BitVec.ofNat_add]
  rw [State.spPopped, State.spPopped]
  by_cases h : k ≤ 15 ∧ m.getLsbD 15 = true
  · obtain ⟨hle, hsp⟩ := h
    rw [if_pos ⟨hle, hsp⟩, if_pos ⟨by omega, hsp⟩, hmore (by omega), ← BitVec.add_assoc]
  · rw [if_neg h, if_neg fun h' => h ⟨by omega, h'.2⟩, hmore hk, ← BitVec.add_assoc]

/-- The pop of sp itself loads it and moves it on. -/
theorem State.spPopped_sp (hon : m.getLsbD 15 = true) :
    s.spPopped m 15 = BitVec.ofNat 32 (s.mem.readLE (s.spPopped m 16).toNat 4) + 4 := by
  simp [State.spPopped, hon, State.spLoaded]

theorem PoppedFrom.start (s : State) (m : Long) : PoppedFrom s m 32 s where
  frame := ⟨_, _, _, _, rfl⟩
  sp := by simp [State.spPopped]
  registers n hn _ := (if_neg fun h => by omega).symm

theorem PoppedFrom.skip (h : PoppedFrom s m (k + 1) t) (hk : k < 32) (hoff : m.getLsbD k = false) :
    PoppedFrom s m k t where
  frame := h.frame
  sp := h.sp.trans (State.spPopped_of_off hk hoff).symm
  registers n hn hne := by
    have hiff : k + 1 ≤ n ∧ m.getLsbD n = true ↔ k ≤ n ∧ m.getLsbD n = true := by
      refine ⟨fun h => ⟨by omega, h.2⟩, fun ⟨hle, hon⟩ => ⟨lt_of_le_of_ne hle fun heq => ?_, hon⟩⟩
      exact absurd (heq ▸ hon) (Bool.eq_false_iff.1 hoff)
    rw [h.registers n hn hne, if_congr hiff rfl rfl]

theorem PoppedFrom.mem_eq (h : PoppedFrom s m k t) : t.mem = s.mem := by
  obtain ⟨_, _, _, _, rfl⟩ := h.frame
  rfl

theorem PoppedFrom.params_eq (h : PoppedFrom s m k t) : t.params = s.params := by
  obtain ⟨_, _, _, _, rfl⟩ := h.frame
  rfl

/-- A write to a register and to sp changes no more than registers. -/
theorem State.setG_drop_frame (s : State) (g : GReg) (v n : Nat) :
    ∃ w l f d, (s.setG g v).drop n = { s with w := w, l := l, f := f, d := d } := by
  obtain ⟨file, i⟩ := g
  cases file <;> exact ⟨_, _, _, _, rfl⟩

theorem State.setG_sp_other {g : GReg} (hg : g ≠ ⟨.l, spReg⟩) (s : State) (v : Nat) : (s.setG g v).sp = s.sp :=
  BitVec.eq_of_toNat_eq (s.setG_G_other g ⟨.l, spReg⟩ v hg)

theorem State.drop_sp (s : State) (n : Nat) : (s.drop n).sp = s.sp + BitVec.ofNat 32 n := State.setL_L_self _ _ _

/-- The pop of the next register of the mask. -/
theorem PoppedFrom.pop (h : PoppedFrom s m (k + 1) t) (hk : k < 32) (hon : m.getLsbD k = true)
    (hfit : s.fitsAt k (s.spPopped m (k + 1))) :
    ∃ u, t.popNumber k = .ok u ∧ PoppedFrom s m k u := by
  have htop : t.sp.toNat + (GReg.ofNumber k).file.size ≤ t.params.memSize := by
    rw [h.sp, h.params_eq]
    exact hfit
  have hpop := State.popReg_eq_ok.2 ⟨htop, rfl⟩
  rw [h.sp, h.mem_eq] at hpop
  refine ⟨_, hpop, ?_, ?_, fun n hn hne => ?_⟩
  · obtain ⟨w, l, f, d, hframe⟩ := t.setG_drop_frame (GReg.ofNumber k)
      (s.mem.readLE (s.spPopped m (k + 1)).toNat (GReg.ofNumber k).file.size) (GReg.ofNumber k).file.size
    obtain ⟨_, _, _, _, rfl⟩ := h.frame
    exact ⟨w, l, f, d, hframe⟩
  · rw [State.drop_sp]
    by_cases hsp : k = 15
    · subst hsp
      rw [State.spPopped_sp hon]
      exact congrArg (· + 4) (State.setL_L_self _ _ _)
    · rw [State.setG_sp_other (ofNumber_ne_sp hk hsp), h.sp, State.spPopped_of_on hk hon hsp]
  · rw [State.drop, State.setSp_G (ofNumber_ne_sp hn hne)]
    by_cases hnk : n = k
    · subst hnk
      rw [State.setG_G_self, two_pow_eight_mul, Nat.mod_eq_of_lt (s.mem.readLE_lt _ _), if_pos ⟨le_rfl, hon⟩]
    · have hiff : k + 1 ≤ n ∧ m.getLsbD n = true ↔ k ≤ n ∧ m.getLsbD n = true :=
        and_congr_left fun _ => by omega
      have hother : GReg.ofNumber k ≠ GReg.ofNumber n := fun heq => hnk (ofNumber_inj hk hn heq).symm
      rw [State.setG_G_other _ _ _ _ hother, h.registers n hn hne, if_congr hiff rfl rfl]

/-- The register numbers from `k` up, highest first. -/
theorem reverse_range'_eq_append (hk : k < 32) :
    (List.range' k (32 - k)).reverse = (List.range' (k + 1) (32 - (k + 1))).reverse ++ [k] := by
  rw [show 32 - k = 32 - (k + 1) + 1 by omega, List.range'_succ, List.reverse_cons]

/-- Where the registers from `k` up all fit, they are popped. -/
theorem State.pop_from (hk : k ≤ 32)
    (hfit : ∀ n < 32, k ≤ n → m.getLsbD n = true → s.fitsAt n (s.spPopped m (n + 1))) :
    ∃ t, eachOfMask m State.popNumber (List.range' k (32 - k)).reverse s = .ok t ∧ PoppedFrom s m k t := by
  induction hk using Nat.decreasingInduction with
  | self => exact ⟨s, rfl, PoppedFrom.start s m⟩
  | of_succ k hk ih =>
    obtain ⟨t, ht, hpopped⟩ := ih fun n hn hle => hfit n hn (by omega)
    rw [reverse_range'_eq_append hk, eachOfMask_append, ht, ok_bind_fault, eachOfMask_singleton]
    split
    · next hon => exact hpopped.pop hk hon (hfit k hk le_rfl hon)
    · next hoff => exact ⟨t, rfl, hpopped.skip hk (Bool.eq_false_iff.2 hoff)⟩

theorem State.popMask_eq_ok (hfit : ∀ n < 32, m.getLsbD n = true → s.fitsAt n (s.spPopped m (n + 1))) :
    ∃ t, s.popMask m = .ok t ∧ PoppedFrom s m 0 t := by
  obtain ⟨t, ht, hpopped⟩ := State.pop_from (s := s) (m := m) (Nat.zero_le 32) fun n hn _ => hfit n hn
  refine ⟨t, ?_, hpopped⟩
  rw [State.popMask, popEach_eq, List.range_eq_range']
  exact ht

/-- Where the registers above `n` fit and `n` does not, its pop is the one that faults. -/
theorem State.popMask_eq_error (hn : n < 32) (hon : m.getLsbD n = true)
    (hfit : ∀ j < 32, n < j → m.getLsbD j = true → s.fitsAt j (s.spPopped m (j + 1)))
    (hpast : s.params.memSize < (s.spPopped m (n + 1)).toNat + (GReg.ofNumber n).file.size) :
    s.popMask m = .error (.memoryBounds (s.spPopped m (n + 1)).toNat) := by
  obtain ⟨t, ht, hpopped⟩ := State.pop_from (s := s) (m := m) (k := n + 1) hn fun j hj hle => hfit j hj hle
  have hpop : t.popNumber n = .error (.memoryBounds (s.spPopped m (n + 1)).toNat) := by
    rw [State.popNumber, State.popReg, bind_eq_error, State.top, State.memRead_eq_error, hpopped.sp, hpopped.params_eq]
    exact .inl ⟨hpast, rfl⟩
  rw [State.popMask, popEach_eq, range_eq_append hn, List.reverse_append, List.reverse_cons, eachOfMask_append,
    eachOfMask_append, ht, ok_bind_fault, eachOfMask_singleton, if_pos hon, hpop]
  rfl

end

theorem getLsbD_above (m : Long) (n : Nat) {j : Nat} (hj : j < 32) :
    (m >>> (n + 1) <<< (n + 1)).getLsbD j = (m.getLsbD j && decide (n + 1 ≤ j)) := by
  rw [BitVec.getLsbD_shiftLeft, BitVec.getLsbD_ushiftRight]
  by_cases h : n + 1 ≤ j
  · simp [hj, h, Nat.lt_of_succ_le h]
  · simp [h, Nat.lt_of_not_le h]

theorem getLsbD_0x7fff {j : Nat} (hj : j < 32) : (0x7fff : Long).getLsbD j = decide (j < 15) := by
  revert j
  decide

/-- The bits of a mask above one of them. -/
theorem maskBytes_above (m : Long) (n : Nat) : maskBytes (m >>> (n + 1) <<< (n + 1)) = bytesBetween m (n + 1) 32 :=
  maskBytes_eq_bytesBetween le_rfl fun j hj => by rw [getLsbD_above m n hj, decide_eq_decide.2 (and_iff_left hj)]

/-- The bits of a mask above one of them that are below that of sp. -/
theorem maskBytes_above_below_sp (m : Long) (n : Nat) :
    maskBytes (m >>> (n + 1) <<< (n + 1) &&& 0x7fff) = bytesBetween m (n + 1) 15 :=
  maskBytes_eq_bytesBetween (by decide) fun j hj => by
    rw [BitVec.getLsbD_and, getLsbD_above m n hj, getLsbD_0x7fff hj, Bool.and_assoc, Bool.decide_and]

theorem maskBytes_below_sp (m : Long) : maskBytes (m &&& 0x7fff) = bytesBetween m 0 15 :=
  maskBytes_eq_bytesBetween (by decide) fun j hj => by
    rw [BitVec.getLsbD_and, getLsbD_0x7fff hj, decide_eq_decide.2 (and_iff_right (Nat.zero_le j))]

/-- Settles O56. -/
theorem popregsResult : Obligations.PopregsResult := by
  intro s m above size popped slot
  have hpopped : popped = s.spLoaded m := by
    rw [State.spLoaded, ← maskBytes_above]
  have hslot (n : Nat) : slot n = s.spPopped m (n + 1) := by
    rw [State.spPopped, ← hpopped, ← maskBytes_above, ← maskBytes_above_below_sp]
    rfl
  refine ⟨fun hfit => ?ok, fun n hn hon hfit hpast => ?fault⟩
  case ok =>
    obtain ⟨t, ht, hpop⟩ := State.popMask_eq_ok fun n hn hon => hslot n ▸ hfit n hn hon
    obtain ⟨_, _, _, _, rfl⟩ := hpop.frame
    refine ⟨_, complete_of_ok ht, rfl, hpop.sp.trans ?_, fun n hn hne => (hpop.registers n hn hne).trans ?_⟩
    · rw [State.spPopped, hpopped, maskBytes_below_sp, maskBytes_eq]
      simp only [Nat.zero_le, true_and]
    · simp only [hslot, Nat.zero_le, true_and]
      rfl
  case fault =>
    rw [hslot] at hpast ⊢
    exact complete_of_error (State.popMask_eq_error hn hon (fun j hj hnj hjon => hslot j ▸ hfit j hj hnj hjon) hpast)

/-! ## One at a time -/

section
variable {m rest : Long} {op : Nat → State → Result} {s t u : State} {n : Nat} {ns ks : List Nat}

/-- The instruction for the first register of the mask, then the one for the others from the same pc, is the one for the
whole mask. -/
theorem complete_eachOfMask_first (hpc : ∀ a, op n s = .ok a → a.pc = s.pc) (hon : m.getLsbD n = true)
    (hoff : ∀ j ∈ ns, m.getLsbD j = false) (hne : ∀ j ∈ ks, j ≠ n)
    (hrest : ∀ j, rest.getLsbD j = (m.getLsbD j && decide (j ≠ n))) (ht : t.faulted = false) (hu : u.faulted = false)
    (hfirst : complete s 2 (op n s) = .next t)
    (hothers : complete { t with pc := s.pc } 6 (eachOfMask rest op (ns ++ n :: ks) { t with pc := s.pc }) = .next u) :
    complete s 6 (eachOfMask m op (ns ++ n :: ks) s) = .next u := by
  obtain ⟨a, ha, rfl⟩ := ok_of_complete hfirst ht
  have hsame : { a.setPc (s.npc 2) with pc := s.pc } = a := by
    rw [← hpc a ha]
    rfl
  rw [hsame] at hothers
  obtain ⟨b, hb, rfl⟩ := ok_of_complete hothers hu
  rw [eachOfMask_first hon hoff hne hrest, ha, ok_bind_fault, hb, complete_ok, State.npc, State.npc, hpc a ha]

theorem State.pushNumber_pc (h : s.pushNumber n = .ok t) : t.pc = s.pc := by
  obtain ⟨-, rfl⟩ := State.push_eq_ok.1 h
  rfl

theorem State.popNumber_pc (h : s.popNumber n = .ok t) : t.pc = s.pc := by
  obtain ⟨-, rfl⟩ := State.popReg_eq_ok.1 h
  exact State.setG_pc _ _ _

end

/-- A mask without one of its bits. -/
theorem getLsbD_xor_one_shiftLeft {m : Long} {n : Nat} (hn : n < 32) (hon : m.getLsbD n = true) (j : Nat) :
    (m ^^^ 1#32 <<< n).getLsbD j = (m.getLsbD j && decide (j ≠ n)) := by
  rw [BitVec.getLsbD_xor]
  by_cases h : j = n
  · subst h
    simp [hon, hn]
  · have hother : (1#32 <<< n).getLsbD j = false := by
      rw [← BitVec.twoPow_eq, BitVec.getLsbD_twoPow, decide_eq_false (Ne.symm h), Bool.and_false]
    rw [hother, Bool.xor_false, decide_eq_true h, Bool.and_true]

/-- Settles O57. -/
theorem registerMasksAreOnePushOrPopAtATime : Obligations.RegisterMasksAreOnePushOrPopAtATime := by
  intro s t u m n hn hon ht hu rest
  have hrest := getLsbD_xor_one_shiftLeft hn hon
  have hbelow : ∀ j ∈ List.range n, j < n := fun j hj => List.mem_range.1 hj
  have habove : ∀ j ∈ List.range' (n + 1) (32 - (n + 1)), n < j ∧ j < 32 := fun j hj => by
    rw [List.mem_range'_1] at hj
    omega
  refine ⟨fun hlow hfirst hothers => ?push, fun hhigh hfirst hothers => ?pop⟩
  case push =>
    have hmask (m : Long) (s : State) : exec (.pushregs m) s =
        complete s 6 (eachOfMask m State.pushNumber (List.range n ++ n :: List.range' (n + 1) (32 - (n + 1))) s) := by
      rw [← range_eq_append hn, ← pushEach_eq]
      rfl
    rw [exec_pushInstr] at hfirst
    rw [hmask] at hothers ⊢
    exact complete_eachOfMask_first (fun _ => State.pushNumber_pc) hon (fun j hj => hlow j (hbelow j hj))
      (fun j hj => (habove j hj).1.ne') hrest ht hu hfirst hothers
  case pop =>
    have hmask (m : Long) (s : State) : exec (.popregs m) s = complete s 6 (eachOfMask m State.popNumber
        ((List.range' (n + 1) (32 - (n + 1))).reverse ++ n :: (List.range n).reverse) s) := by
      have hlist := congrArg List.reverse (range_eq_append hn)
      rw [List.reverse_append, List.reverse_cons, List.append_assoc, List.singleton_append] at hlist
      rw [← hlist, ← popEach_eq]
      rfl
    rw [exec_popInstr] at hfirst
    rw [hmask] at hothers ⊢
    exact complete_eachOfMask_first (fun _ => State.popNumber_pc) hon
      (fun j hj => hhigh j (habove j (List.mem_reverse.1 hj)).2 (habove j (List.mem_reverse.1 hj)).1)
      (fun j hj => (hbelow j (List.mem_reverse.1 hj)).ne) hrest ht hu hfirst hothers

/-! ## Pops after pushes -/

section
variable {s t : State} {m : Long}

/-- Where the pushes of a mask complete, its registers fitted. -/
theorem State.fits_of_pushMask (h : s.pushMask m = .ok t) (n : Nat) (hn : n < 32) (hon : m.getLsbD n = true) :
    s.fitsAt n (s.spPushed m (n + 1)) := by
  induction n using Nat.strong_induction_on with
  | _ n ih =>
    by_contra hpast
    have herror := State.pushMask_eq_error hn hon (fun j hj => ih j hj (hj.trans hn)) (not_le.1 hpast)
    rw [h] at herror
    exact nomatch herror

/-- Pops of a mask without sp meet the slots that its pushes made. -/
theorem State.spPopped_of_sp_eq_spPushed (hsp : m.getLsbD 15 = false) (ht : t.sp = s.spPushed m 32) {k : Nat}
    (hk : k ≤ 32) : t.spPopped m k = s.spPushed m k := by
  rw [State.spPopped, if_neg fun h => Bool.eq_false_iff.1 hsp h.2, ht, State.spPushed, State.spPushed,
    ← bytesBetween_add (Nat.zero_le k) hk, BitVec.ofNat_add, ← BitVec.sub_sub, BitVec.sub_add_cancel]

end

/-- Settles O58: each register pushed is read back from its slot. -/
theorem popregsUndoesPushregs : Obligations.PopregsUndoesPushregs := by
  intro s t m w hp hsp hpush ht
  obtain ⟨a, ha, rfl⟩ := ok_of_complete hpush ht
  have hfits := State.fits_of_pushMask ha
  obtain rfl := Except.ok.inj ((State.pushMask_eq_ok hfits).symm.trans ha)
  have hslot {k : Nat} (hk : k ≤ 32) : ((s.pushed m 32).setPc (s.npc 6)).spPopped m k = s.spPushed m k :=
    State.spPopped_of_sp_eq_spPushed hsp State.pushed_sp hk
  obtain ⟨u, hu, hpop⟩ := State.popMask_eq_ok (s := (s.pushed m 32).setPc (s.npc 6)) (m := m) fun n hn hon => by
    rw [hslot hn]
    exact hfits n hn hon
  refine (complete_of_ok hu).trans (congrArg _ (State.eq_of_registers ?frame fun n hn => ?register))
  case frame =>
    obtain ⟨_, _, _, _, rfl⟩ := hpop.frame
    have hpc : s.pc + 6 + 6 = s.pc + 12 := BitVec.add_assoc _ _ _
    rw [← hpc]
    rfl
  case register =>
    change u.G _ = s.G _
    by_cases hne : n = 15
    · subst hne
      have hback : u.sp = s.sp := by rw [hpop.sp, hslot (Nat.zero_le 32), State.spPushed_zero]
      exact congrArg BitVec.toNat hback
    · rw [hpop.registers n hn hne, hslot hn]
      split
      · next hon =>
        have hvalue := State.readLE_memPushed w (memSize_le_of_wf hp) le_rfl hfits hn hon.2
        rwa [State.pushedValue, if_neg hne] at hvalue
      · rw [State.setPc_G, State.pushed_G_other hn hne]

/-! ## Entering and leaving with registers -/

theorem map_eq_ok {r : Result} {f : State → State} {t : State} : r.map f = .ok t ↔ ∃ u, r = .ok u ∧ f u = t := by
  cases r <;> simp [Except.map]

theorem map_eq_error {r : Result} {f : State → State} {x : Fault} : r.map f = .error x ↔ r = .error x := by
  cases r <;> simp [Except.map]

theorem State.push_setPc (s : State) (n v : Nat) (p : Long) :
    (s.setPc p).push n v = (s.push n v).map fun t => t.setPc p := by
  rcases Nat.lt_or_ge s.params.memSize ((s.sp - BitVec.ofNat 32 n).toNat + n) with hpast | hfit
  · rw [State.push_eq_error (s := s).2 ⟨hpast, rfl⟩]
    exact State.push_eq_error.2 ⟨hpast, rfl⟩
  · rw [State.push_eq_ok (s := s).2 ⟨hfit, rfl⟩]
    exact State.push_eq_ok.2 ⟨hfit, rfl⟩

theorem State.pushNumber_setPc (n : Nat) (s : State) (p : Long) :
    (s.setPc p).pushNumber n = (s.pushNumber n).map fun t => t.setPc p :=
  State.push_setPc s _ _ p

/-- Pushes do not depend on the pc. -/
theorem State.pushMask_setPc (s : State) (m p : Long) :
    (s.setPc p).pushMask m = (s.pushMask m).map fun t => t.setPc p := by
  rw [State.pushMask, State.pushMask, pushEach_eq, pushEach_eq]
  induction List.range 32 generalizing s with
  | nil => rfl
  | cons n ns ih =>
    simp only [eachOfMask, State.pushNumber_setPc, ih]
    split
    · cases s.pushNumber n with
      | error x => rfl
      | ok t => exact ih t
    · rfl

/-- leave sets the pc whatever it was. -/
theorem State.leaveFrame_setPc (s : State) (stkc : Byte) (p : Long) :
    (s.setPc p).leaveFrame stkc = s.leaveFrame stkc := rfl

/-- An instruction that goes on to another pc cannot leave the state of a fault without raising it. -/
theorem error_of_complete_trap {s : State} {n : Nat} {r : Result} {x : Fault} (hn : BitVec.ofNat 32 n ≠ 0)
    (h : complete s n r = trap s x) : r = .error x := by
  rcases complete_eq_next.1 h with ⟨u, -, hu⟩ | ⟨y, hy, hu⟩
  · have hpc : s.pc = s.pc + BitVec.ofNat 32 n := congrArg State.pc hu
    exact absurd (left_eq_add.1 hpc) hn
  · have hstatus : Status.fault x = .fault y := congrArg State.status hu
    rw [hy, Status.fault.inj hstatus]

section
variable {s : State} {m : Long} {n : Nat} {stkc : Byte}

theorem toNat_sub_ofNat {x : Long} (h : n ≤ x.toNat) : (x - BitVec.ofNat 32 n).toNat = x.toNat - n := by
  have hlt := x.isLt
  have hn : (BitVec.ofNat 32 n).toNat = n := by rw [BitVec.toNat_ofNat, Nat.mod_eq_of_lt (by omega)]
  rw [BitVec.toNat_sub_of_le (by rwa [BitVec.le_def, hn]), hn]

/-- Where the bytes of a mask are there below sp, its slots lie among them. -/
theorem State.slot_bounds (hroom : maskBytes m ≤ s.sp.toNat) (hn : n < 32) (hon : m.getLsbD n = true) :
    s.sp.toNat - maskBytes m ≤ (s.spPushed m (n + 1)).toNat ∧
      (s.spPushed m (n + 1)).toNat + (GReg.ofNumber n).file.size ≤ s.sp.toNat := by
  have htotal := bytesBetween_add (m := m) (Nat.zero_le (n + 1)) hn
  have hslot := bytesBetween_succ (m := m) (Nat.zero_le n)
  rw [maskBytes_eq] at hroom ⊢
  rw [maskSize_of_on hon] at hslot
  rw [State.spPushed, toNat_sub_ofNat (by omega)]
  omega

/-- sp after enter, where there is room for the saved fp and the locals. -/
theorem toNat_sub_four_sub_stackBytes {x : Long} (h : 4 + 2 * stkc.toNat ≤ x.toNat) :
    (x - 4 - stackBytes stkc).toNat = x.toNat - (4 + 2 * stkc.toNat) := by
  have hfour : (x - 4).toNat = x.toNat - 4 := toNat_sub_ofNat (n := 4) (by omega)
  rw [stackBytes, toNat_sub_ofNat (by omega), hfour, Nat.sub_sub]

/-- The state after the actions of enter. -/
def State.entered (s : State) (stkc : Byte) : State :=
  ((s.setMem (s.mem.writeLE (s.sp - 4).toNat 4 s.fp.toNat)).setFp (s.sp - 4)).setSp (s.sp - 4 - stackBytes stkc)

theorem State.enterFrame_of_fits (hfit : (s.sp - 4).toNat + 4 ≤ s.params.memSize) :
    s.enterFrame stkc = .ok (s.entered stkc) :=
  State.enterFrame_eq_ok.2 ⟨hfit, rfl⟩

theorem State.entered_sp : (s.entered stkc).sp = s.sp - 4 - stackBytes stkc := State.setL_L_self _ _ _

/-- Of what enter wrote, later writes to memory and to sp leave fp. -/
theorem State.entered_setMem_setSp (mem : Memory) (v : Long) :
    ((s.entered stkc).setMem mem).setSp v = ((s.setMem mem).setFp (s.sp - 4)).setSp v :=
  State.setL_setL_self ((s.setMem mem).setFp (s.sp - 4)) spReg (s.sp - 4 - stackBytes stkc) v

/-- entersav completes where its frame is below sp (45_control_stack_misc.md R363). -/
theorem exec_entersav_of_room :
    4 + 2 * stkc.toNat + maskBytes m ≤ s.sp.toNat → s.sp.toNat ≤ s.params.memSize →
    ∃ t, exec (.entersav stkc m) s = .next t ∧
      t = { s with
        mem := t.mem,
        pc := s.pc + 6,
        l := (s.l.set 6 (s.sp - 4)).set 7 (s.sp - BitVec.ofNat 32 (4 + 2 * stkc.toNat + maskBytes m)) } ∧
      ∀ b, b < s.sp.toNat - (4 + 2 * stkc.toNat + maskBytes m) ∨ s.sp.toNat ≤ b → t.mem.read b = s.mem.read b := by
  intro hroom hsp
  have hfour : (s.sp - 4).toNat = s.sp.toNat - 4 := toNat_sub_ofNat (n := 4) (by omega)
  have henter : s.enterFrame stkc = .ok (s.entered stkc) := State.enterFrame_of_fits (by omega)
  have hnat : (s.entered stkc).sp.toNat = s.sp.toNat - (4 + 2 * stkc.toNat) := by
    rw [State.entered_sp, toNat_sub_four_sub_stackBytes (by omega)]
  have hslots {n : Nat} := State.slot_bounds (s := s.entered stkc) (m := m) (n := n) (by omega)
  have hpush := State.pushMask_eq_ok (s := s.entered stkc) (m := m) fun n hn hon =>
    (hslots hn hon).2.trans (hnat ▸ (Nat.sub_le _ _).trans hsp)
  refine ⟨_, complete_of_ok (bind_eq_ok.2 ⟨_, henter, hpush⟩), ?_, fun b hb => ?_⟩
  · have hfinal : (s.entered stkc).spPushed m 32 = s.sp - BitVec.ofNat 32 (4 + 2 * stkc.toNat + maskBytes m) := by
      rw [State.spPushed, State.entered_sp, stackBytes, BitVec.ofNat_add, BitVec.ofNat_add, maskBytes_eq,
        ← BitVec.sub_sub, ← BitVec.sub_sub]
      rfl
    rw [State.pushed, hfinal, State.entered_setMem_setSp]
    rfl
  · have hout : ((s.entered stkc).memPushed m 32).read b = (s.entered stkc).mem.read b := by
      refine State.read_memPushed_other fun n hn hon => ?_
      have := hslots hn hon
      omega
    exact hout.trans (Memory.read_writeLE_other _ _ _ _ _ (by omega))

/-- leaveres completes where the registers of its mask are above sp and its frame above fp
(45_control_stack_misc.md R350). -/
theorem exec_leaveres_of_room (hp : s.params.wf = true) (hfp : m.getLsbD 14 = false) (hsp : m.getLsbD 15 = false)
    (hroom : s.sp.toNat + maskBytes m ≤ s.params.memSize) (hframe : s.fp.toNat + 8 ≤ s.params.memSize) :
    ∃ t, exec (.leaveres stkc m) s = .next t ∧
      t = { s with w := t.w, l := t.l, f := t.f, d := t.d, pc := BitVec.ofNat 32 (s.mem.readLE (s.fp.toNat + 4) 4) } ∧
      t.fp = BitVec.ofNat 32 (s.mem.readLE s.fp.toNat 4) ∧ t.sp = s.fp + 8 + BitVec.ofNat 32 (2 * stkc.toNat) := by
  have hsize := memSize_le_of_wf hp
  obtain ⟨t, ht, hpop⟩ := State.popMask_eq_ok (s := s) (m := m) fun n hn hon => by
    have htotal := bytesBetween_add (m := m) (Nat.zero_le n) hn.le
    rw [bytesBetween_eq_add hn, maskSize_of_on hon, ← maskBytes_eq] at htotal
    rw [State.fitsAt, State.spPopped, if_neg fun h => Bool.eq_false_iff.1 hsp h.2, BitVec.toNat_add, BitVec.toNat_ofNat]
    omega
  have hfpEq : t.fp = s.fp := by
    have h14 := hpop.registers 14 (by decide) (by decide)
    rw [hfp] at h14
    exact BitVec.eq_of_toNat_eq h14
  have habove : (s.fp + 4).toNat = s.fp.toNat + 4 := by bv_omega
  obtain ⟨hsaved, hreturn⟩ :
      t.fp.toNat + 4 ≤ t.params.memSize ∧ (t.fp + 4).toNat + 4 ≤ t.params.memSize := by
    rw [hfpEq, habove, hpop.params_eq]
    omega
  have hleave := State.leaveFrame_eq_ok (stkc := stkc).2 ⟨hsaved, hreturn, rfl⟩
  rw [hfpEq, habove, hpop.mem_eq] at hleave
  refine ⟨_, finish_of_ok (bind_eq_ok.2 ⟨t, ht, hleave⟩), ?_, ?_, State.setL_L_self _ _ _⟩
  · obtain ⟨_, _, _, _, rfl⟩ := hpop.frame
    rfl
  · simp

end

/-- Settles O59. -/
theorem entersavAndLeaveresResults : Obligations.EntersavAndLeaveresResults := by
  intro s stkc m locals
  refine ⟨fun t u henter ht hpush hu => ?entersav, fun t u hpop ht hleave hu => ?leaveres, fun x henter => ?enterFault,
    fun t x henter ht hpush => ?pushFault, fun x hpop => ?popFault, fun t x hpop ht hleave => ?leaveFault,
    fun w hp hroom hsp => ?entersavCompletes, fun hp hfp hsp hroom hframe => ?leaveresCompletes⟩
  case entersav =>
    obtain ⟨e, he, rfl⟩ := ok_of_complete henter ht
    obtain ⟨b, hb, rfl⟩ := ok_of_complete hpush hu
    rw [State.pushMask_setPc] at hb
    obtain ⟨c, hc, rfl⟩ := map_eq_ok.1 hb
    exact complete_of_ok (t := c) (bind_eq_ok.2 ⟨e, he, hc⟩)
  case leaveres =>
    obtain ⟨p, hp, rfl⟩ := ok_of_complete hpop ht
    have hframe := (State.leaveFrame_setPc p stkc (s.npc 6)).symm.trans (ok_of_finish hleave hu)
    exact finish_of_ok (bind_eq_ok.2 ⟨p, hp, hframe⟩)
  case enterFault =>
    exact complete_of_error (bind_eq_error.2 (.inl (error_of_complete_trap (by decide) henter)))
  case pushFault =>
    obtain ⟨e, he, rfl⟩ := ok_of_complete henter ht
    have hpushed := error_of_complete_trap (by decide) hpush
    rw [State.pushMask_setPc] at hpushed
    exact complete_of_error (bind_eq_error.2 (.inr ⟨e, he, map_eq_error.1 hpushed⟩))
  case popFault =>
    exact finish_of_error (bind_eq_error.2 (.inl (error_of_complete_trap (by decide) hpop)))
  case leaveFault =>
    obtain ⟨p, hp, rfl⟩ := ok_of_complete hpop ht
    rcases finish_eq_next.1 hleave with hok | ⟨y, hy, hu⟩
    · obtain ⟨-, -, hstate⟩ := State.leaveFrame_eq_ok.1 hok
      have hstatus : Status.fault x = p.status := congrArg State.status hstate
      rw [State.faulted, State.setPc_status, ← hstatus] at ht
      exact nomatch ht
    · have hstatus : Status.fault x = .fault y := congrArg State.status hu
      rw [Status.fault.inj hstatus]
      rw [State.leaveFrame_setPc] at hy
      exact finish_of_error (bind_eq_error.2 (.inr ⟨p, hp, hy⟩))
  case entersavCompletes => exact exec_entersav_of_room hroom hsp
  case leaveresCompletes => exact exec_leaveres_of_room hp hfp hsp hroom hframe

end Sys2Proof.Machine
end

section
/-! PROOFS. Faults and terminal states (60_exceptions.md R391, R396 to R401, R404). No operation that an instruction is
made of touches the status, halt excepted, and a fault that one of them raises is taken on the state the instruction
started in. So a step answers a state with the status it found, or Halted, or the state it found with the fault; from a
running state, only the last of the three has a fault. -/

namespace Sys2Proof.Machine

/-! ## Operations leave the status alone -/

/-- The state has this status. -/
def HasStatus (st : Status) (t : State) : Prop := t.status = st

section
variable (s : State) (k : Reg)

@[simp] theorem State.putF_status (v : Option Nat) : (s.putF k v).status = s.status := by
  obtain ⟨_, _, h⟩ := s.putF_frame k v
  rw [h]

@[simp] theorem State.putD_status (v : Option Nat) : (s.putD k v).status = s.status := by
  obtain ⟨_, _, h⟩ := s.putD_frame k v
  rw [h]

@[simp] theorem State.putTrunc_status (lo hi : Int) (v : Option Int) : (s.putTrunc k lo hi v).status = s.status := by
  obtain ⟨_, _, h⟩ := s.putTrunc_frame k lo hi v
  rw [h]

@[simp] theorem State.setOrdering_status (o : Option Ordering) : (s.setOrdering o).status = s.status := by
  obtain ⟨_, _, _, h⟩ := s.setOrdering_frame o
  rw [h]

@[simp] theorem State.remainderW_status (q : QOp 16) (v : Word) : (s.remainderW q v).status = s.status := by
  unfold State.remainderW
  split <;> rfl

@[simp] theorem State.remainderL_status (q : QOp 32) (v : Long) : (s.remainderL q v).status = s.status := by
  unfold State.remainderL
  split <;> rfl

end

/-- What every operation keeps, a sequence of them under a mask keeps (45_control_stack_misc.md R360, R361). -/
theorem EndsIn.eachOfMask {P : State → Prop} {op : Nat → State → Result} (hop : ∀ n t, P t → EndsIn P (op n t))
    (m : Long) (ns : List Nat) : ∀ {t : State}, P t → EndsIn P (eachOfMask m op ns t) := by
  induction ns with
  | nil => exact .ok
  | cons n ns ih =>
    intro t h
    unfold Machine.eachOfMask
    split
    · exact .bind fun u hu => ih (hop n t h u hu)
    · exact ih h

namespace HasStatus
variable {st : Status} {t : State} (h : HasStatus st t)
include h

theorem setW (k : Reg) (v : Word) : HasStatus st (t.setW k v) := h
theorem setL (k : Reg) (v : Long) : HasStatus st (t.setL k v) := h
theorem setF (k : Reg) (v : Long) : HasStatus st (t.setF k v) := h
theorem setD (k : Reg) (v : Quad) : HasStatus st (t.setD k v) := h

theorem memWrite (a : Long) (n v : Nat) : EndsIn (HasStatus st) (t.memWrite a n v) := by
  intro u hu
  obtain ⟨-, rfl⟩ := State.memWrite_eq_ok.1 hu
  exact h

theorem push (n v : Nat) : EndsIn (HasStatus st) (t.push n v) := .value fun u hu => h.memWrite _ _ _ u hu

theorem popReg (g : GReg) : EndsIn (HasStatus st) (t.popReg g) := .value fun _ _ => (State.setG_status _ _ _).trans h

theorem pushMask (m : Long) : EndsIn (HasStatus st) (t.pushMask m) := by
  rw [State.pushMask, pushEach_eq]
  exact .eachOfMask (fun _ _ hu => hu.push _ _) m _ h

theorem popMask (m : Long) : EndsIn (HasStatus st) (t.popMask m) := by
  rw [State.popMask, popEach_eq]
  exact .eachOfMask (fun _ _ hu => hu.popReg _) m _ h

theorem enterFrame (stkc : Byte) : EndsIn (HasStatus st) (t.enterFrame stkc) :=
  .value fun u hu => h.memWrite _ _ _ u hu

theorem returnFrame (stkc : Byte) : EndsIn (HasStatus st) (t.returnFrame stkc) := .value fun _ _ => h

theorem leaveFrame (stkc : Byte) : EndsIn (HasStatus st) (t.leaveFrame stkc) := .bind fun _ _ => .value fun _ _ => h

theorem callTo (npc target : Long) : EndsIn (HasStatus st) (t.callTo npc target) := .value fun u hu => h.push _ _ u hu

/-- A store to a q-operand is a store to its register or to memory (30_encoding.md R103). -/
theorem store {n : Nat} {setReg : Reg → BitVec n → State} (hreg : ∀ k v, HasStatus st (setReg k v)) (v : BitVec n)
    (kind : QKind n) : EndsIn (HasStatus st) (kind.store setReg v t) := by
  cases kind with
  | reg k => exact .ok (hreg k v)
  | imm u => exact .error _
  | mem a => exact h.memWrite _ _ _

theorem groupWrite (g : GReg) (n : SizeCode) (v : Nat) : EndsIn (HasStatus st) (g.groupWrite n v t) := by
  intro u hu
  obtain ⟨-, -, -, hstatus, -⟩ := GReg.groupWrite_frame g n v t u hu
  exact hstatus.trans h

/-- A store to an m-operand is one to memory or to a group of registers (40_data_movement.md R157). -/
theorem writeM (o : MOp) (n : SizeCode) (v : Nat) : EndsIn (HasStatus st) (o.write n v t) := by
  cases o with
  | mmema a => exact h.memWrite _ _ _
  | mreg g => exact h.groupWrite _ _ _
  | x xm => exact h.memWrite _ _ _

end HasStatus

/-! ## Every step is precise -/

/-- From `s` the outcome is a next state: `s` with a fault and nothing else changed (R401), or one with the status of `s`,
or a halted one. -/
def PreciseOut (s : State) (o : Out) : Prop :=
  ∃ t, o = .next t ∧ ((∃ x, t = s.raise x) ∨ HasStatus s.status t ∨ HasStatus .halted t)

section
variable {s : State} {r : Result}

theorem PreciseOut.raise (x : Fault) : PreciseOut s (.next (s.raise x)) := ⟨_, rfl, .inl ⟨x, rfl⟩⟩

theorem PreciseOut.keep {t : State} (h : HasStatus s.status t) : PreciseOut s (.next t) := ⟨t, rfl, .inr (.inl h)⟩

theorem PreciseOut.halt {t : State} (h : HasStatus .halted t) : PreciseOut s (.next t) := ⟨t, rfl, .inr (.inr h)⟩

theorem PreciseOut.finish (hr : EndsIn (HasStatus s.status) r) : PreciseOut s (finish s r) := by
  cases r with
  | ok t => exact .keep (hr t rfl)
  | error x => exact .raise x

theorem PreciseOut.complete {n : Nat} (hr : EndsIn (HasStatus s.status) r) : PreciseOut s (complete s n r) := by
  cases r with
  | ok t => exact .keep (hr t rfl)
  | error x => exact .raise x

end

/-- Every instruction is precise. The arms are grouped by the operations an instruction is made of. -/
theorem exec_precise (i : Instr) (s : State) : PreciseOut s (exec i s) := by
  have h : HasStatus s.status s := rfl
  cases i with
  | halt => exact .halt rfl
  | nop => exact .keep h
  | addcl | subcl => exact .raise _
  -- a register, by a count in the instruction
  | sliw | srliw | sraiw | rliw | rriw | slil | srlil | srail | rlil | rril => exact .keep h
  | leal q r =>
    refine PreciseOut.complete ?_
    cases q.kind longImms s <;> exact .ok h
  -- a register, by an operation on floating operands
  | addf | subf | mulf | divf | sqrtf | cvtdf => exact PreciseOut.complete (.value fun _ _ => State.putF_status _ _ _)
  | addd | subd | muld | divd | sqrtd | cvtfd => exact PreciseOut.complete (.value fun _ _ => State.putD_status _ _ _)
  | cvttful | cvttfsl | cvttdul | cvttdsl =>
    exact PreciseOut.complete (.value fun _ _ => State.putTrunc_status _ _ _ _ _)
  | cmpf | cmpd => exact PreciseOut.complete (.value fun _ _ => State.setOrdering_status _ _)
  -- quotients and remainders, after the tests of the divisor
  | divuw | remuw | remsw | divul | remul | remsl =>
    exact PreciseOut.complete (.bind fun _ _ => .value fun _ _ => h)
  | divsw | divsl => exact PreciseOut.complete (.bind fun _ _ => .bind fun _ _ => .value fun _ _ => h)
  | divruw | divrulw => exact PreciseOut.complete (.bind fun _ _ => .value fun _ _ => State.remainderW_status _ _ _)
  | divrul => exact PreciseOut.complete (.bind fun _ _ => .value fun _ _ => State.remainderL_status _ _ _)
  | divrsw | divrslw =>
    exact PreciseOut.complete (.bind fun _ _ => .bind fun _ _ => .value fun _ _ => State.remainderW_status _ _ _)
  | divrsl =>
    exact PreciseOut.complete (.bind fun _ _ => .bind fun _ _ => .value fun _ _ => State.remainderL_status _ _ _)
  -- stores to an operand
  | stow | stowb | stolw | stoflags | set0w | set1w => exact PreciseOut.complete (h.store (fun _ _ => h.setW _ _) _ _)
  | stol | stolb | set0l | set1l => exact PreciseOut.complete (h.store (fun _ _ => h.setL _ _) _ _)
  | stof => exact PreciseOut.complete (h.store h.setF _ _)
  | stod => exact PreciseOut.complete (h.store h.setD _ _)
  | gmov => exact PreciseOut.complete (.bind fun _ _ => h.groupWrite _ _ _)
  | gsto => exact PreciseOut.complete (.bind fun _ _ => h.writeM _ _ _)
  -- the stack
  | pushw | pushl | pushf | pushd => exact PreciseOut.complete (.bind fun _ _ => h.push _ _)
  | popw => exact PreciseOut.complete (.bind fun _ _ => .value fun t ht => h.store h.setW _ _ t ht)
  | popl => exact PreciseOut.complete (.bind fun _ _ => .value fun t ht => h.store h.setL _ _ t ht)
  | popf => exact PreciseOut.complete (.bind fun _ _ => .value fun t ht => h.store h.setF _ _ t ht)
  | popd => exact PreciseOut.complete (.bind fun _ _ => .value fun t ht => h.store h.setD _ _ t ht)
  | pushregs bmsk => exact PreciseOut.complete (h.pushMask bmsk)
  | popregs bmsk => exact PreciseOut.complete (h.popMask bmsk)
  | enter stkc => exact PreciseOut.complete (h.enterFrame stkc)
  | entersav stkc bmsk =>
    exact PreciseOut.complete (.bind fun t ht => HasStatus.pushMask (h.enterFrame stkc t ht) bmsk)
  -- transfers of control
  | jump c j =>
    refine PreciseOut.finish ?_
    split
    · exact .value fun _ _ => h
    · exact .ok h
  | jumpf | jumpb => exact .keep h
  | call c j =>
    refine PreciseOut.finish ?_
    split
    · exact .bind fun _ _ => h.callTo _ _
    · exact .ok h
  | callf | callb => exact PreciseOut.finish (h.callTo _ _)
  | ret stkc => exact PreciseOut.finish (h.returnFrame stkc)
  | leave stkc => exact PreciseOut.finish (h.leaveFrame stkc)
  | leaveres stkc bmsk =>
    exact PreciseOut.finish (.bind fun t ht => HasStatus.leaveFrame (h.popMask bmsk t ht) stkc)
  -- every other instruction reads one operand and sets one register, or flags
  | _ => exact PreciseOut.complete (.value fun _ _ => h)

/-- In Halted and Fault nothing executes and nothing changes (R404). -/
theorem step_of_not_running {s : State} (h : s.status ≠ .running) : step s = .next s := by
  unfold step
  split
  · next hrunning => exact absurd hrunning h
  · rfl
  · rfl

/-- A fetch that fails takes its fault, and nothing executes (R400). -/
theorem step_of_fetch_error {s : State} {x : Fault} (hrunning : s.status = .running) (hfetch : s.fetch = .error x) :
    step s = trap s x := by
  simp only [step, hrunning, hfetch]
  rfl

/-- Every step is precise: a state that does not run is left as it is, and a fault of the fetch changes nothing else. -/
theorem step_precise (s : State) : PreciseOut s (step s) := by
  by_cases hrunning : s.status = .running
  · cases hfetch : s.fetch with
    | ok i => exact step_of_fetch hrunning hfetch ▸ exec_precise i s
    | error x => exact step_of_fetch_error hrunning hfetch ▸ .raise x
  · exact step_of_not_running hrunning ▸ .keep rfl

/-- Settles O10. A running state is not left with a fault unless the step raised it. -/
theorem aFaultChangesOnlyTheStatus : Obligations.AFaultChangesOnlyTheStatus := by
  intro s t x hrunning hstep hfault
  have hterminal : t.status ≠ .running := by
    rw [hfault]
    nofun
  refine ⟨?_, step_of_not_running hterminal⟩
  obtain ⟨u, hu, hprecise⟩ := step_precise s
  obtain rfl : t = u := Host.Outcome.next.inj (hstep.symm.trans hu)
  rcases hprecise with ⟨y, rfl⟩ | hkept | hhalted
  · obtain rfl : y = x := Status.fault.inj hfault
    rfl
  · exact absurd (hkept.trans hrunning) hterminal
  · exact nomatch hfault.symm.trans hhalted

/-- Settles O9. -/
theorem everyStepAnswersANextState : Obligations.EveryStepAnswersANextState := fun s =>
  have ⟨t, ht, _⟩ := step_precise s
  ⟨t, ht⟩

/-- An instruction that ends without a fault has the status its operations end in. -/
theorem status_of_finish {s t : State} {st : Status} {r : Result} (hr : EndsIn (HasStatus st) r)
    (ht : finish s r = .next t) (hfault : ∀ x, t.status ≠ .fault x) : t.status = st := by
  rcases finish_eq_next.1 ht with hok | ⟨x, -, rfl⟩
  · exact hr t hok
  · exact absurd rfl (hfault x)

/-- Settles O8. -/
theorem terminalStatusIsKept : Obligations.TerminalStatusIsKept := by
  refine fun s => ⟨step_of_not_running, fun stkc m => ?_⟩
  have h : HasStatus s.status s := rfl
  simp only [List.forall_mem_cons, List.not_mem_nil, false_implies, implies_true, and_true]
  exact ⟨fun t ht => status_of_finish (h.returnFrame stkc) ht, fun t ht => status_of_finish (h.leaveFrame stkc) ht,
    fun t ht => status_of_finish (.bind fun u hu => HasStatus.leaveFrame (h.popMask m u hu) stkc) ht⟩

/-! ## Fetch -/

theorem State.fetch_of_odd {s : State} (hodd : s.pc.toNat % 2 = 1) : s.fetch = .error (.misalignedPC s.pc) :=
  if_pos hodd

/-- Where the pc is even and the bytes there do not decode, the fetch raises their fault. -/
theorem State.fetch_of_decode_error {s : State} {e : DecodeError} (heven : s.pc.toNat % 2 = 0)
    (hdecode : decode s.params s.fetchBytes = .error e) : s.fetch = .error (s.decodeFault e) := by
  simp [State.fetch, heven, hdecode]

/-- At or past the end of memory there is no byte to fetch. -/
theorem State.fetchBytes_of_le {s : State} (hpast : s.params.memSize ≤ s.pc.toNat) : s.fetchBytes = [] := by
  rw [← List.length_eq_zero_iff, State.fetchBytes_length, Nat.sub_eq_zero_of_le hpast, Nat.min_zero]

/-- Settles O7: each clause by the fault of what the bytes at the pc decode to. -/
theorem fetchFaults : Obligations.FetchFaults := by
  intro s hrunning
  refine ⟨fun hodd => step_of_fetch_error hrunning (State.fetch_of_odd hodd), fun heven => ?_⟩
  have faults {e : DecodeError} (hdecode : decode s.params s.fetchBytes = .error e) : step s = trap s (s.decodeFault e) :=
    step_of_fetch_error hrunning (State.fetch_of_decode_error heven hdecode)
  refine ⟨fun op => faults, faults, fun off => faults, fun hpast => ?_⟩
  have hdecode : decode s.params s.fetchBytes = .error (.truncated 0) := by
    rw [State.fetchBytes_of_le hpast]
    rfl
  exact faults hdecode

/-- Settles O29. Neither instruction looks at its operand. -/
theorem carryInstructionsAreNotAvailable : Obligations.CarryInstructionsAreNotAvailable := by
  refine fun q r s => ⟨rfl, rfl, fun hrunning hfetch => ?_, fun x => step_of_fetch_error⟩
  rcases hfetch with hfetch | hfetch <;> exact step_of_fetch hrunning hfetch

/-! ## Operands that cannot be accessed -/

/-- An instruction whose first operation raises a fault takes it (R401). -/
theorem complete_of_read_error {α : Type} {x : Except Fault α} {e : Fault} (hx : x = .error e) {s : State} {len : Nat}
    {f : α → Result} : complete s len (x >>= f) = trap s e :=
  complete_of_error (bind_eq_error.2 (.inl hx))

/-- A store to an operand in memory past MEMSIZE raises MemoryBounds with its address (R396). -/
theorem QKind.store_of_past {n b : Nat} {kind : QKind n} {s : State} {a : Long} (hkind : kind = .mem a) (hn : n / 8 = b)
    (hpast : s.params.memSize < a.toNat + b) (setReg : Reg → BitVec n → State) (v : BitVec n) :
    kind.store setReg v s = .error (.memoryBounds a.toNat) := by
  rw [hkind, QKind.store_mem, hn]
  exact State.memWrite_eq_error.2 ⟨hpast, rfl⟩

/-- Settles O20: each list of the statement reads the operand first, or ends in a store to it. -/
theorem failingOperandsTakeTheirFault : Obligations.FailingOperandsTakeTheirFault := by
  refine ⟨fun q r s x hq => ?word, fun q r s x hq => ?long, fun q r s x hq => ?float, fun q r s x hq => ?double,
    fun q r s x hq => ?byteW, fun q r s x hq => ?byteL, fun q r c s a hq hpast => ?storeWord,
    fun q r c s a hq hpast => ?storeLong, fun q r s a hq hpast => ?storeDouble, fun q r s a hq hpast => ?storeByte,
    fun n g m s a hfits hm hpast => ?group⟩
  all_goals simp only [List.forall_mem_cons, List.not_mem_nil, false_implies, implies_true, and_true]
  case word | long | float | double | byteW | byteL => and_intros <;> exact complete_of_read_error hq
  case storeWord | storeLong | storeDouble | storeByte =>
    and_intros <;> exact complete_of_error (QKind.store_of_past (QOp.kind_eq_mem hq) rfl hpast _ _)
  case group =>
    obtain ⟨hread, hwrite⟩ := MOp.read_write_of_mem (n := n) hm
    obtain ⟨v, hv⟩ := GReg.exists_groupRead hfits s
    refine ⟨complete_of_read_error (hread.trans (State.memRead_eq_error.2 ⟨hpast, rfl⟩)), ?_⟩
    rw [exec_gsto hv, hwrite]
    exact complete_of_error (State.memWrite_eq_error.2 ⟨hpast, rfl⟩)

/-! ## Divisions that trap -/

section
variable {n m : Nat} {x : Except Fault (BitVec m)} {d : BitVec m} {s : State} {len : Nat}

/-- A divisor of 0 takes DivideByZero before anything else is looked at (42_divide_other_arith.md R222). -/
theorem complete_of_divisor_zero (hx : x = .ok 0) {f : BitVec m → Result} :
    complete s len (do let v ← x; nonzeroDivisor s v; f v) = trap s (.divideByZero s.pc) :=
  complete_of_error (bind_eq_error.2 (.inr ⟨0, hx, bind_eq_error.2 (.inl (if_pos rfl))⟩))

/-- The most negative dividend over -1 takes DivideOverflow where a quotient is written (R222). -/
theorem complete_of_overflow {a : BitVec n} (ha : a = BitVec.intMin n) (hd : d = BitVec.allOnes m) (hne : d ≠ 0)
    (hx : x = .ok d) {f : BitVec m → Result} :
    complete s len (do let v ← x; nonzeroDivisor s v; quotientFits s a v; f v) = trap s (.divideOverflow s.pc) :=
  complete_of_error (bind_eq_error.2 (.inr ⟨d, hx, bind_eq_error.2 (.inr ⟨(), if_neg hne,
    bind_eq_error.2 (.inl (if_pos ⟨ha, hd⟩))⟩)⟩))

end

/-- The remainder by -1 is 0, where the quotient is representable and where it is not. -/
theorem tmod_toInt_allOnes {m : Nat} (hm : 0 < m) (i : Int) : i.tmod (BitVec.allOnes m).toInt = 0 := by
  rw [BitVec.toInt_allOnes, if_pos hm, Int.tmod_neg, Int.tmod_one]

/-- Settles O28: the tests of the divisor come before anything is written. -/
theorem divisionTraps : Obligations.DivisionTraps := by
  refine ⟨fun q r s hq => ?wordZero, fun q r s hq => ?longZero,
    fun q r s hq => ⟨fun ha => ?word, fun ha => ?longByWord⟩, fun q r s hq ha => ?long⟩
  case wordZero | longZero =>
    intro out
    and_intros <;> exact complete_of_divisor_zero hq
  case word =>
    have hrem : BitVec.ofInt 16 ((s.W r).toInt.tmod (0xffff : Word).toInt) = 0 :=
      congrArg (BitVec.ofInt 16) (tmod_toInt_allOnes (m := 16) (by decide) _)
    exact ⟨complete_of_overflow ha rfl (by decide) hq, complete_of_overflow ha rfl (by decide) hq,
      (complete_unsigned_division hq (by decide) _).trans (congrArg (wordResult s _ r) hrem)⟩
  case longByWord => exact complete_of_overflow ha rfl (by decide) hq
  case long =>
    have hrem : BitVec.ofInt 32 ((s.L r).toInt.tmod (0xffffffff : Long).toInt) = 0 :=
      congrArg (BitVec.ofInt 32) (tmod_toInt_allOnes (m := 32) (by decide) _)
    exact ⟨complete_of_overflow ha rfl (by decide) hq, complete_of_overflow ha rfl (by decide) hq,
      (complete_unsigned_division hq (by decide) _).trans (congrArg (longResult s _ r) hrem)⟩

end Sys2Proof.Machine
end

section
/-! PROOFS. The start state (70_reset_and_hazards.md R421), and eight words read by the decoder (95_test_vectors.md).
The start state stores IMAGE over the unspecified bytes, so the laws of `Memory.writeBytes` say what each byte is; a
fault of the first fetch is a case of `fetchFaults`. -/

namespace Sys2Proof.Machine

/-! ## Words -/

/-- Settles O3, by running the decoder on each word. -/
theorem writtenWordsDecode : Obligations.WrittenWordsDecode := ⟨rfl, rfl, rfl, rfl, rfl, rfl, rfl, rfl⟩

/-! ## The start state -/

section
variable (p : Params) (entry : Long) (image : List Byte) (u : Unspecified)

/-- sp is MEMSIZE - 4 as a number: a MEMSIZE of 2^32 does not wrap (R421). -/
theorem State.start_sp_toNat (hp : p.wf = true) : (State.start p entry image u).sp.toNat = p.memSize - 4 := by
  have hsize := memSize_le_of_wf hp
  have hsp : (State.start p entry image u).sp = BitVec.ofNat 32 (p.memSize - 4) := Vector.getElem_set_self _
  rw [hsp, BitVec.toNat_ofNat]
  exact Nat.mod_eq_of_lt (by omega)

theorem State.start_L_of_ne_sp {k : Reg} (hk : k ≠ spReg) : (State.start p entry image u).L k = u.l[k.val] :=
  Vector.getElem_set_ne (by decide) k.isLt fun h => hk (Fin.ext h.symm)

theorem State.start_flags_high : (State.start p entry image u).flags >>> 5 = 0 := by
  change u.flags.setWidth 16 >>> 5 = 0
  bv_omega

theorem State.start_flags_low : (State.start p entry image u).flags.setWidth 5 = u.flags :=
  BitVec.setWidth_setWidth_of_le _ (by decide)

theorem State.start_read_image (hwf : u.mem.wf) {k : Nat} {b : Byte} (hb : image[k]? = some b) :
    (State.start p entry image u).mem.read k = b := by
  obtain ⟨hk, rfl⟩ := List.getElem?_eq_some_iff.1 hb
  have hread := Memory.read_writeBytes_self u.mem 0 k image hwf hk
  rwa [Nat.zero_add] at hread

theorem State.start_read_past_image {a : Nat} (ha : image.length ≤ a) :
    (State.start p entry image u).mem.read a = u.mem.read a :=
  Memory.read_writeBytes_other _ _ _ _ (.inr ((Nat.zero_add _).trans_le ha))

/-- The start state has the invariant that every step keeps, where IMAGE fits in memory. -/
theorem State.start_inv (hp : p.wf = true) (hwf : u.mem.wf) (hbelow : u.mem.below p.memSize)
    (himage : image.length ≤ p.memSize) : Inv (State.start p entry image u) where
  params_wf := hp
  mem_wf := Memory.wf_writeBytes _ _ _ hwf
  mem_below := Memory.below_writeBytes _ _ _ _ hbelow ((Nat.zero_add _).trans_le himage)
  flags_high := State.start_flags_high p entry image u

end

/-- Settles O13, clause by clause; the two faults are those of a fetch at ENTRY. -/
theorem startState : Obligations.StartState := by
  intro p entry image u hp hwf hbelow himage s
  obtain ⟨hodd, heven⟩ := fetchFaults s rfl
  have hpast (h : entry.toNat % 2 = 0) : p.memSize ≤ entry.toNat → step s = trap s (.memoryBounds entry.toNat) := by
    obtain ⟨-, -, -, hbounds⟩ := heven h
    exact hbounds
  exact ⟨rfl, State.start_sp_toNat p entry image u hp, rfl, rfl, State.start_flags_high p entry image u,
    State.start_flags_low p entry image u, rfl, fun _ => State.start_L_of_ne_sp p entry image u, rfl, rfl,
    fun _ _ => State.start_read_image p entry image u hwf, fun _ => State.start_read_past_image p entry image u,
    hodd, hpast, State.start_inv p entry image u hp hwf hbelow himage⟩

end Sys2Proof.Machine
end
